-- ==== Sys2Proof/Word.lean ====
section
/-! DEFINITION. The word types of X25519-CORE: bytes, micro-operation words, register numbers and
field elements. -/

namespace Sys2Proof

/-- A byte is 8 bits (R8). -/
abbrev Byte := BitVec 8

/-- A micro-operation is one 16-bit word of the micro-ROM (R80). -/
abbrev Word := BitVec 16

/-- A field register number, 0 .. 15 (R21, R80). -/
abbrev Reg := Fin 16

/-- The field prime p = 2^255 − 19, in the spec's own hexadecimal form (R6, R120). -/
abbrev fieldPrime : Nat := 0x7fffffffffffffffffffffffffffffffffffffffffffffffffffffffffffffed

/-- A field element: an integer in [0, p), its canonical representative (R21, R120). The nineteen
other values of 255 bits have no representation, as U12 of 93_implementation_defined.md asks. -/
abbrev Fe := Fin fieldPrime

end Sys2Proof
end

