-- ==== Sys2Proof/Config.lean ====
section
/-! DEFINITION. The open parameters of the block (R6) and the free values. -/

namespace Sys2Proof

/-- The accumulator doubling formula (R6, R146, R147; conflict C1). -/
inductive DblMode where
  /-- The standard X25519 doubling (R146). -/
  | rfc
  /-- The doubling the source document prints (R147). -/
  | doc
deriving DecidableEq, Repr

/-- The kinds of micro-operation: what the latency of a micro-operation may depend on (R261, R262). -/
inductive MicroKind where
  | fadd | fsub | fmul | fsqr | cswap | seti | setr | loopi | loopr | enc | clmp | halt
deriving DecidableEq, Repr

/-- `DBL_MODE`, an OPEN parameter. DESIGN CHOICE (log 5): `State.reset` takes the spec's reference value;
everything that depends on the mode takes it as an argument, so a statement can be made for both. -/
def Config.dblMode : DblMode := .rfc

/-- `BASE`, the platform's byte address of the host register window: OPEN, so uninterpreted (R6, R61; log 6). -/
opaque Config.base : Nat

/-- `LAT(op)`, the latency in clock cycles of a kind of micro-operation: OPEN, so uninterpreted. Its only
argument is the kind, which is R262 (d): it cannot depend on operand values (R261; log 7). -/
opaque Config.lat : MicroKind → Nat

/-- The free values of `f[4]` .. `f[15]` when the spec calls them unspecified: after a CLR (R183) and after a
reset event (R250); any value in [0, p), U4 and U5 of 93_implementation_defined.md. The arguments are a count of those
events, then `f[4]` .. `f[15]`, IBUF and OBUF just before the event, then the register number. DESIGN CHOICE (log 2):
R251 leaves open whether the values still derive from the scalar. As a function of what holds the scalar and its
intermediate values they may or may not; they depend on nothing else of the state. -/
opaque Config.freeField (count : Nat) (fregs : Vector Fe 12) (ibuf obuf : Vector Byte 32) (r : Reg) : Fe

end Sys2Proof
end

