-- ==== Sys2Proof/Syntax.lean ====
section
/-! DEFINITION. The instructions: one constructor for every row of spec/opcode_table.json. -/

namespace Sys2Proof

/-- The twelve micro-operations (R83) and the three host commands (R84). -/
inductive Instr where
  /-- FADD rd, ra, rb (R121). -/
  | fadd (rd ra rb : Reg)
  /-- FSUB rd, ra, rb (R122). -/
  | fsub (rd ra rb : Reg)
  /-- FMUL rd, ra, rb (R123). -/
  | fmul (rd ra rb : Reg)
  /-- FSQR rd, ra (R124). -/
  | fsqr (rd ra : Reg)
  /-- CSWAP ra, rb (R151). -/
  | cswap (ra rb : Reg)
  /-- SETI imm8 (R152). -/
  | seti (imm8 : BitVec 8)
  /-- SETR imm8 (R167). -/
  | setr (imm8 : BitVec 8)
  /-- LOOPI tgt6 (R153). -/
  | loopi (tgt6 : BitVec 6)
  /-- LOOPR tgt6 (R168). -/
  | loopr (tgt6 : BitVec 6)
  /-- ENC ra (R169). -/
  | enc (ra : Reg)
  /-- CLMP (R113). -/
  | clmp
  /-- HALT (R181). -/
  | halt
  /-- The host command CLR, `CMD` byte 0x00 (R183). -/
  | clr
  /-- The host command MULBASE, `CMD` byte 0x01 (R184). -/
  | mulbase
  /-- The host command CLAMP, `CMD` byte 0x02 (R185). -/
  | clamp
deriving DecidableEq, Repr

namespace Instr

/-- The kind of a micro-operation; a host command is none (R10, R261). -/
def kind? : Instr → Option MicroKind
  | fadd _ _ _ => some .fadd
  | fsub _ _ _ => some .fsub
  | fmul _ _ _ => some .fmul
  | fsqr _ _ => some .fsqr
  | cswap _ _ => some .cswap
  | seti _ => some .seti
  | setr _ => some .setr
  | loopi _ => some .loopi
  | loopr _ => some .loopr
  | enc _ => some .enc
  | clmp => some .clmp
  | halt => some .halt
  | clr => none
  | mulbase => none
  | clamp => none

/-- The pseudo-instruction FMOV rd, ra (R95). -/
def fmov (rd ra : Reg) : Instr := fadd rd ra 0

/-- The pseudo-instruction FDBL rd, ra (R95). -/
def fdbl (rd ra : Reg) : Instr := fadd rd ra ra

/-- The pseudo-instruction FCLR rd (R95). -/
def fclr (rd : Reg) : Instr := fadd rd 0 0

/-- The pseudo-instruction FNEG rd, ra (R95). -/
def fneg (rd ra : Reg) : Instr := fsub rd 0 ra

end Instr

/-! The aliases of the field registers (R22). -/

def Reg.ZERO : Reg := 0
def Reg.ONE : Reg := 1
def Reg.X1 : Reg := 2
def Reg.A24 : Reg := 3
def Reg.X2 : Reg := 4
def Reg.Z2 : Reg := 5
def Reg.X3 : Reg := 6
def Reg.Z3 : Reg := 7
def Reg.A : Reg := 8
/-- `R` is the second alias of `f[8]` (R22). -/
def Reg.R : Reg := 8
def Reg.B : Reg := 9
def Reg.C : Reg := 10
def Reg.D : Reg := 11
def Reg.DA : Reg := 12
def Reg.CB : Reg := 13
def Reg.T : Reg := 14
def Reg.U : Reg := 15

end Sys2Proof
end

