-- ==== Sys2Proof/WellFormed.lean ====
section
/-! DEFINITION. Well-formed instructions: the register constraints of R90. Every other operand is checked by
its type (register numbers 0 .. 15, 8-bit immediates, 6-bit targets). -/

namespace Sys2Proof

/-- The registers a micro-operation may write: `f[4]` .. `f[15]`; the four constants cannot be written
(R22, R23, R90). -/
def Reg.writable (r : Reg) : Bool := decide (4 ≤ r.val)

/-- R90: the destination of FADD, FSUB, FMUL, FSQR and both operands of CSWAP are writable registers. -/
def Instr.wellFormed : Instr → Bool
  | .fadd rd _ _ => Reg.writable rd
  | .fsub rd _ _ => Reg.writable rd
  | .fmul rd _ _ => Reg.writable rd
  | .fsqr rd _ => Reg.writable rd
  | .cswap ra rb => Reg.writable ra && Reg.writable rb
  | .seti _ => true
  | .setr _ => true
  | .loopi _ => true
  | .loopr _ => true
  | .enc _ => true
  | .clmp => true
  | .halt => true
  | .clr => true
  | .mulbase => true
  | .clamp => true

abbrev Instr.WellFormed (i : Instr) : Prop := i.wellFormed = true

end Sys2Proof
end

