-- ==== Sys2Proof/Decode.lean ====
section
/-! DEFINITION. Decoding (R97, R84), total, rejecting by name; then the encoder, from the same tables. -/

namespace Sys2Proof

/-- Why a word or a command byte is no instruction. -/
inductive DecodeError where
  /-- Major opcode 0x0, 0xD, 0xE or 0xF (R91). -/
  | unassignedOpcode
  /-- A must-be-zero bit of a known major opcode is 1 (R91). -/
  | nonzeroField
  /-- A constant register stands where one that can be written is needed (R90, R91). -/
  | constantRegister
  /-- A `CMD` byte 0x03 .. 0xFF (R92). -/
  | unknownCommand
deriving DecidableEq, Repr

/-- `op`, bits 15:12 (R80). -/
def wordOp (w : Word) : BitVec 4 := w.extractLsb' 12 4

/-- `rd`, bits 11:8 (R80). -/
def wordRd (w : Word) : Reg := (w.extractLsb' 8 4).toFin

/-- `ra`, bits 7:4 (R80). -/
def wordRa (w : Word) : Reg := (w.extractLsb' 4 4).toFin

/-- `rb`, bits 3:0 (R80). -/
def wordRb (w : Word) : Reg := (w.extractLsb' 0 4).toFin

/-- `imm8`, bits 7:0, used as is (R82). -/
def wordImm8 (w : Word) : BitVec 8 := w.extractLsb' 0 8

/-- `tgt6`, bits 5:0, an absolute micro-ROM word address (R82). -/
def wordTgt6 (w : Word) : BitVec 6 := w.extractLsb' 0 6

/-- Accept `i` when its must-be-zero bits are zero and its register constraint holds. -/
def accept (zeros regs : Bool) (i : Instr) : Except DecodeError Instr :=
  if !zeros then .error .nonzeroField
  else if !regs then .error .constantRegister
  else .ok i

/-- The decode procedure of R97, total on all 2^16 words. -/
def decodeMicro (w : Word) : Except DecodeError Instr :=
  match wordOp w with
  | 0x1#4 => accept true (wordRd w).writable (.fadd (wordRd w) (wordRa w) (wordRb w))
  | 0x2#4 => accept true (wordRd w).writable (.fsub (wordRd w) (wordRa w) (wordRb w))
  | 0x3#4 => accept true (wordRd w).writable (.fmul (wordRd w) (wordRa w) (wordRb w))
  | 0x4#4 => accept (wordRb w == 0) (wordRd w).writable (.fsqr (wordRd w) (wordRa w))
  | 0x5#4 =>
    accept (wordRd w == 0) ((wordRa w).writable && (wordRb w).writable) (.cswap (wordRa w) (wordRb w))
  | 0x6#4 => accept (wordRd w == 0) true (.seti (wordImm8 w))
  | 0x7#4 => accept (wordRd w == 0) true (.setr (wordImm8 w))
  | 0x8#4 => accept (w.extractLsb' 6 6 == 0) true (.loopi (wordTgt6 w))
  | 0x9#4 => accept (w.extractLsb' 6 6 == 0) true (.loopr (wordTgt6 w))
  | 0xA#4 => accept (wordRd w == 0 && wordRb w == 0) true (.enc (wordRa w))
  | 0xB#4 => accept (w.extractLsb' 0 12 == 0) true .clmp
  | 0xC#4 => accept (w.extractLsb' 0 12 == 0) true .halt
  | _ => .error .unassignedOpcode

/-- The three host commands; every other `CMD` byte is illegal (R84, R92). -/
def decodeCommand (v : Byte) : Except DecodeError Instr :=
  match v with
  | 0x00#8 => .ok .clr
  | 0x01#8 => .ok .mulbase
  | 0x02#8 => .ok .clamp
  | _ => .error .unknownCommand

/-- The encoded form of an instruction: a micro-ROM word (R80) or a `CMD` byte (R81). -/
inductive Code where
  | word (w : Word)
  | command (v : Byte)
deriving DecidableEq, Repr

/-- Decoding, total on words and on command bytes. -/
def decode : Code → Except DecodeError Instr
  | .word w => decodeMicro w
  | .command v => decodeCommand v

/-- How many bits the opcode table gives a code. -/
def Code.width : Code → Nat
  | .word _ => 16
  | .command _ => 8

/-- A code as a number, bit 0 the least significant. -/
def Code.toNat : Code → Nat
  | .word w => w.toNat
  | .command v => v.toNat

/-- Formats R3, R2, SW and E1 of R80: an opcode and three 4-bit fields. -/
def packRegs (op : BitVec 4) (rd ra rb : Reg) : Word :=
  op ++ BitVec.ofFin (w := 4) rd ++ BitVec.ofFin (w := 4) ra ++ BitVec.ofFin (w := 4) rb

/-- Format I8 of R80. -/
def packImm (op : BitVec 4) (imm8 : BitVec 8) : Word := op ++ 0#4 ++ imm8

/-- Format J6 of R80. -/
def packTgt (op : BitVec 4) (tgt6 : BitVec 6) : Word := op ++ 0#6 ++ tgt6

/-- Format Z of R80. -/
def packNone (op : BitVec 4) : Word := op ++ 0#12

/-- The encoder, row by row of R83 and R84. -/
def encode : Instr → Code
  | .fadd rd ra rb => .word (packRegs 0x1#4 rd ra rb)
  | .fsub rd ra rb => .word (packRegs 0x2#4 rd ra rb)
  | .fmul rd ra rb => .word (packRegs 0x3#4 rd ra rb)
  | .fsqr rd ra => .word (packRegs 0x4#4 rd ra 0)
  | .cswap ra rb => .word (packRegs 0x5#4 0 ra rb)
  | .seti imm8 => .word (packImm 0x6#4 imm8)
  | .setr imm8 => .word (packImm 0x7#4 imm8)
  | .loopi tgt6 => .word (packTgt 0x8#4 tgt6)
  | .loopr tgt6 => .word (packTgt 0x9#4 tgt6)
  | .enc ra => .word (packRegs 0xA#4 0 ra 0)
  | .clmp => .word (packNone 0xB#4)
  | .halt => .word (packNone 0xC#4)
  | .clr => .command 0x00#8
  | .mulbase => .command 0x01#8
  | .clamp => .command 0x02#8

/-- The match and the mask of an instruction's row of R83 and R84. -/
def tableRow : Instr → Nat × Nat
  | .fadd _ _ _ => (0x1000, 0xF000)
  | .fsub _ _ _ => (0x2000, 0xF000)
  | .fmul _ _ _ => (0x3000, 0xF000)
  | .fsqr _ _ => (0x4000, 0xF00F)
  | .cswap _ _ => (0x5000, 0xFF00)
  | .seti _ => (0x6000, 0xFF00)
  | .setr _ => (0x7000, 0xFF00)
  | .loopi _ => (0x8000, 0xFFC0)
  | .loopr _ => (0x9000, 0xFFC0)
  | .enc _ => (0xA000, 0xFF0F)
  | .clmp => (0xB000, 0xFFFF)
  | .halt => (0xC000, 0xFFFF)
  | .clr => (0x00, 0xFF)
  | .mulbase => (0x01, 0xFF)
  | .clamp => (0x02, 0xFF)

/-- The instruction the decoder reads from a table row's word: a 16-bit row is a micro-ROM word, an 8-bit row
a `CMD` byte. Both are one unit wide, so no byte order enters (R64). -/
def decodeTableWord (nbits w : Nat) : Option Instr :=
  if nbits = 16 then (decodeMicro (BitVec.ofNat 16 w)).toOption
  else if nbits = 8 then (decodeCommand (BitVec.ofNat 8 w)).toOption
  else none

end Sys2Proof
end

