-- ==== Sys2Proof/Machine/Rom.lean ====
section
/-! DEFINITION. The two micro-ROM images, word by word (R210, R211, R212). -/

namespace Sys2Proof.Machine

/-- Words 0x00 .. 0x15, the same in both images: the CLAMP program, the ladder initialisation, and the
iteration body up to `U = B²`. -/
def romCommon : List Word :=
  [0xB000, 0xC000,
   0x1410, 0x1500, 0x1620, 0x1710, 0x60FE,
   0x5046, 0x5057, 0x1845, 0x2945, 0x1A67, 0x2B67, 0x3CB8, 0x3DA9, 0x1ECD, 0x46E0,
   0x2ECD, 0x4EE0, 0x372E, 0x4E80, 0x4F90]

/-- The doubling words, the swap back and the LOOPI: 0x16 .. 0x1D under RFC (R211), 0x16 .. 0x1C under DOC (R212). -/
def romDoubling : DblMode → List Word
  | .rfc => [0x34EF, 0x2FEF, 0x3A3F, 0x1EEA, 0x35FE, 0x5046, 0x5057, 0x8007]
  | .doc => [0x24EF, 0x3E89, 0x1EEE, 0x15EE, 0x5046, 0x5057, 0x8007]

/-- The LOOPR of the inversion, whose target differs (R211 word 0x22, R212 word 0x21). -/
def romLoopr : DblMode → Word
  | .rfc => 0x9020
  | .doc => 0x901F

/-- The inversion, the affine conversion, ENC and HALT, from 0x1E under RFC and 0x1D under DOC. -/
def romInversion (m : DblMode) : List Word :=
  [0x1850, 0x70F8, 0x4880, 0x3885, romLoopr m, 0x4880, 0x4880, 0x3885,
   0x4880, 0x4880, 0x3885, 0x4880, 0x3885, 0x3848, 0xA080, 0xC000]

/-- The unused words, all 0x0000, an illegal word (R210, R91): 18 under RFC, 19 under DOC. -/
def romUnused : DblMode → List Word
  | .rfc => List.replicate 18 0x0000
  | .doc => List.replicate 19 0x0000

def romWords (m : DblMode) : List Word := romCommon ++ romDoubling m ++ romInversion m ++ romUnused m

theorem romWords_length (m : DblMode) : (romWords m).length = 64 := by cases m <;> rfl

/-- The image of `ROM[0]` .. `ROM[63]` for a `DBL_MODE`. -/
def romImage (m : DblMode) : Vector Word 64 := ⟨(romWords m).toArray, romWords_length m⟩

/-- The address of the final HALT of MULBASE: the last used word (R210, R213). -/
def haltAddr : DblMode → Nat
  | .rfc => 0x2D
  | .doc => 0x2C

end Sys2Proof.Machine
end

