-- ==== Sys2Proof/Machine/State.lean ====
section
/-! DEFINITION. The state of the block (R20) as plain data, the reasons a step can stop, and reset. -/

namespace Sys2Proof.Machine

/-- Why a step of the model faults. The block's own errors (R221) are no faults: they are next states, raised by
`raiseError`. -/
inductive Fault where
  /-- Raised by a host access at an offset of 0x80 or above, which is not part of the block (R39, U8). Safe: the
  spec gives such an access no step. -/
  | outsideWindow (off : Nat)
deriving DecidableEq, Repr

/-- Why a step of the model is refused. -/
inductive Refusal where
  /-- An instruction without a meaning: no arm of `exec` answers it. -/
  | notModelled (mnemonic : String)
  /-- Raised by a host access that is not one byte wide, which the spec does not define (R65, U7). Safe: the spec
  says that a model refuses it. -/
  | accessWidth (bytes : Nat)
deriving DecidableEq, Repr

/-- A host access to the register window: an offset from `BASE`, a width in bytes, and the byte written
(R62, R63). -/
inductive Access where
  /-- `MemRead(BASE + off, bytes)`. -/
  | read (off bytes : Nat)
  /-- `MemWrite(BASE + off, bytes, v)`. -/
  | write (off bytes : Nat) (v : Byte)
deriving DecidableEq, Repr

/-- Whose step is next in the one total order of R69: the agents of R10. -/
inductive Turn where
  /-- The sequencer's: a micro-step while `BUSY = 1`, no step while `BUSY = 0` (R180). -/
  | sequencer
  /-- A host access. -/
  | host (a : Access)
  /-- Reset, delivered by the platform (R250). -/
  | reset
deriving DecidableEq, Repr

/-- The whole state of the block (R20), then three fields of the model's own: `freeCount`, `turns`, `replies`. -/
structure State where
  /-- `f[4]` .. `f[15]`, in this order; `f[0]` .. `f[3]` are hardwired and not stored (R21, R23). -/
  fregs : Vector Fe 12
  /-- The micro-program counter (R27). -/
  upc : BitVec 6
  /-- The index of the scalar bit of the current ladder iteration (R28). -/
  bitidx : BitVec 8
  /-- The repeat counter of the inversion (R29). -/
  rep : BitVec 8
  /-- `STATUS[0]` (R30, R34). -/
  busy : Bool
  /-- `STATUS[1]` (R30, R34). -/
  done : Bool
  /-- `STATUS[2]` (R30, R34). -/
  err : Bool
  /-- `STATUS[3]`, sticky (R30, R34, R240). -/
  ovr : Bool
  /-- `STATUS[7:4]` (R30, R34, R221). -/
  errcode : BitVec 4
  /-- The saturating count of bytes pushed (R35). -/
  ilen : BitVec 6
  /-- The input buffer: the scalar, byte 0 least significant (R37, R64). -/
  ibuf : Vector Byte 32
  /-- The output buffer: the result, byte 0 least significant (R38, R64). -/
  obuf : Vector Byte 32
  /-- The micro-ROM, constant: no step changes it (R40, R72). -/
  rom : Vector Word 64
  /-- The model's own: how often the field registers have become unspecified (log 2). -/
  freeCount : Nat
  /-- The model's own: the steps still to come, in the total order of R69 (log 3). -/
  turns : List Turn
  /-- The model's own: what the host's reads returned, (offset, byte), newest first (log 4). -/
  replies : List Host.Cell
deriving DecidableEq, Repr

/-- The state after reset for a `DBL_MODE` and for given values of the registers R42 leaves unspecified. -/
def State.afterReset (m : DblMode) (unspecified : Vector Fe 12) : State where
  fregs := unspecified
  upc := 0
  bitidx := 0
  rep := 0
  busy := false
  done := false
  err := false
  ovr := false
  errcode := 0
  ilen := 0
  ibuf := Vector.replicate 32 0x00
  obuf := Vector.replicate 32 0x00
  rom := romImage m
  freeCount := 0
  turns := []
  replies := []

/-- The machine right after reset (R42, R252). DESIGN CHOICE (log 1): `f[4]` .. `f[15]`, for which the spec states
no value, hold 0. -/
def State.reset : State := State.afterReset Config.dblMode (Vector.replicate 12 0)

end Sys2Proof.Machine
end

