-- ==== Sys2Proof/Machine/Flags.lean ====
section
/-! DEFINITION. The five status items (R30): the `STATUS` byte, the error codes, and who sets and clears what.
No micro-operation but HALT writes a flag, and there are no condition codes (R31). -/

namespace Sys2Proof.Machine

/-- The errors of R221. -/
inductive ErrKind where
  | invalidScalarLength
  /-- The host's error; the block never raises it (R223). -/
  | entropySourceUnavailable
  | illegalCommand
  | microFault
deriving DecidableEq, Repr

/-- The code of an error (R221). -/
def ErrKind.code : ErrKind → BitVec 4
  | .invalidScalarLength => 1
  | .entropySourceUnavailable => 2
  | .illegalCommand => 3
  | .microFault => 4

/-- What a read of `STATUS` returns: {ERRCODE, OVR, ERR, DONE, BUSY} (R34). -/
def State.statusByte (s : State) : Byte :=
  s.errcode ++ BitVec.ofBool s.ovr ++ BitVec.ofBool s.err ++ BitVec.ofBool s.done ++ BitVec.ofBool s.busy

/-- The flags of `raise` (R224). -/
def State.errorFlags (s : State) (e : ErrKind) : State :=
  { s with busy := false, done := false, err := true, errcode := e.code }

/-- The flags of an accepted `CMD` write, before the command is examined (R182, R232). -/
def State.acceptFlags (s : State) : State := { s with done := false, err := false, errcode := 0 }

/-- The flags of HALT (R181). -/
def State.haltFlags (s : State) : State := { s with busy := false, done := true }

/-- The flag of a `CMD` or `DIN` write while `BUSY = 1` (R189, R240). -/
def State.overrunFlag (s : State) : State := { s with ovr := true }

end Sys2Proof.Machine
end

