-- ==== Sys2Proof/Machine/FieldArith.lean ====
section
/-! DEFINITION. The modular field-arithmetic unit as functions (R120 to R124), the masked blend of the swap
(R144, R151), and the little-endian byte form of integers (R8, R64). -/

namespace Sys2Proof.Machine

theorem fieldPrime_pos : 0 < fieldPrime := by decide

/-- The canonical representative of an integer: `n mod p` (R7, R120). -/
def toFe (n : Nat) : Fe := ⟨n % fieldPrime, Nat.mod_lt _ fieldPrime_pos⟩

/-- FADD's value: the exact sum, reduced (R121). -/
def feAdd (a b : Fe) : Fe := toFe (a.val + b.val)

/-- FSUB's value: p is added before the reduction, so that the intermediate is never negative (R122). -/
def feSub (a b : Fe) : Fe := toFe (a.val + fieldPrime - b.val)

/-- FMUL's value: the exact product, reduced (R123). -/
def feMul (a b : Fe) : Fe := toFe (a.val * b.val)

/-- FSQR's value (R124). -/
def feSqr (a : Fe) : Fe := toFe (a.val * a.val)

/-- A field register's 255 bits (R21). -/
def feBits (a : Fe) : BitVec 255 := BitVec.ofNat 255 a.val

/-- The swap mask: 255 copies of the scalar bit (R151). -/
def swapMask (bit : Bool) : BitVec 255 := if bit then BitVec.allOnes 255 else 0

/-- The blend `(x & ~mask) | (y & mask)` on 255 bits (R151); under either mask it is one of the two values. -/
def blend (mask : BitVec 255) (x y : Fe) : Fe := toFe ((feBits x &&& ~~~mask) ||| (feBits y &&& mask)).toNat

/-- `LE32(v)`: byte i is `(v >> (8·i)) & 0xFF` (R8, R165). -/
def le32 (v : Nat) : Vector Byte 32 := Vector.ofFn fun i : Fin 32 => BitVec.ofNat 8 (v >>> (8 * i.val))

/-- The integer a list of bytes denotes, the first byte least significant. -/
def leList : List Byte → Nat
  | [] => 0
  | b :: bs => b.toNat + 256 * leList bs

/-- `LE(b)`, the integer a 32-byte sequence denotes (R8). -/
def leValue (b : Vector Byte 32) : Nat := leList b.toList

/-- Bit n of a 32-byte sequence: bit `n mod 8` of byte `n div 8` (R8, R9 `kbit`, R140). -/
def byteBit (b : Vector Byte 32) (n : BitVec 8) : Bool :=
  (b[n.toNat / 8]'(by have := n.isLt; omega)).getLsbD (n.toNat % 8)

end Sys2Proof.Machine
end

