-- ==== Sys2Proof/Machine/Operands.lean ====
section
/-! DEFINITION. The operand forms: a field register read or written by number (R24, R82), and the scalar bit
under `bitidx` (R28, R191). Immediates are used as they are (R82). -/

namespace Sys2Proof.Machine

/-- The hardwired registers `f[0]` .. `f[3]`: 0, 1, 9 and 121665 (R22, R23, R26). -/
def constantField (r : Reg) : Fe :=
  match r.val with
  | 0 => toFe 0
  | 1 => toFe 1
  | 2 => toFe 9
  | _ => toFe 121665

/-- `f[r]`: the one way a field register is read (R9, R23). -/
def State.readField (s : State) (r : Reg) : Fe :=
  if h : 4 ≤ r.val then s.fregs[r.val - 4]'(by have := r.isLt; omega) else constantField r

/-- `f[r] <- v`: the one way a field register is written. A constant is not changed (R23). -/
def State.writeField (s : State) (r : Reg) (v : Fe) : State :=
  { s with fregs := if h : 4 ≤ r.val then s.fregs.set (r.val - 4) v (by have := r.isLt; omega) else s.fregs }

/-- `kbit(n)`: bit n of the scalar in `IBUF` (R9, R140). -/
def State.kbit (s : State) (n : BitVec 8) : Bool := byteBit s.ibuf n

/-- CSWAP's mask: 255 copies of `kbit(bitidx)` (R151). -/
def State.swapMask (s : State) : BitVec 255 := Machine.swapMask (s.kbit s.bitidx)

end Sys2Proof.Machine
end

