-- ==== Sys2Proof/Machine/Ops.lean ====
section
/-! DEFINITION. The shared operations: the micro-program counter, error entry and its clearing, the command
protocol, and what becomes unspecified. -/

namespace Sys2Proof.Machine

/-- The outcome of one instruction or one step. -/
abbrev Result := Host.Outcome State Fault Refusal

/-- `upc <- (upc + 1) mod 64` (R27). -/
def State.advance (s : State) : State := { s with upc := s.upc + 1 }

/-- `upc <- t` (R9). -/
def State.jump (s : State) (t : BitVec 6) : State := { s with upc := t }

/-- `raise E`: the one error entry. Only `BUSY`, `DONE`, `ERR`, `ERRCODE` change; nothing is saved, and control
goes nowhere, for the sequencer has no step while `BUSY = 0` (R224, R231). -/
def State.raiseError (s : State) (e : ErrKind) : State := s.errorFlags e

/-- The return from an error: there is no return instruction; the next accepted `CMD` write clears `ERR` and
`ERRCODE`, and `DONE` with them (R182, R232). -/
def State.acceptCommand (s : State) : State := s.acceptFlags

/-- A `CMD` or `DIN` write while `BUSY = 1` is dropped: `OVR <- 1` and nothing else (R189). -/
def State.dropWrite (s : State) : State := s.overrunFlag

/-- A field micro-operation's end: the destination takes the result and `upc` advances. A destination that is a
constant register is no legal micro-operation, so MicroFault (R23, R90, R91). -/
def State.fieldResult (s : State) (rd : Reg) (v : Fe) : Result :=
  if Reg.writable rd then .next (s.writeField rd v).advance else .next (s.raiseError .microFault)

/-- A `CMD` write of any byte: dropped while `BUSY = 1`, else accepted and then examined (R182, R230). -/
def State.hostCommand (s : State) (body : State → State) : Result :=
  .next (if s.busy then s.dropWrite else body s.acceptCommand)

/-- MULBASE and CLAMP: the length check, then `BUSY <- 1` and `upc` at the command's entry (R184, R185, R222). -/
def State.startProgram (s : State) (entry : BitVec 6) : State :=
  if s.ilen = 32 then { s with busy := true, upc := entry } else s.raiseError .invalidScalarLength

/-- `f[4]` .. `f[15]` become unspecified: each takes a free value in [0, p) (R183, R250). R251 leaves open whether it
still derives from the scalar. DESIGN CHOICE (log 2): it may depend on the old `f[4]` .. `f[15]`, IBUF and OBUF, in a way
that is itself free, and beside them on the count of such events alone. -/
def State.unspecifyFields (s : State) : State :=
  { s with
    fregs := Vector.ofFn fun i : Fin 12 =>
      Config.freeField s.freeCount s.fregs s.ibuf s.obuf ⟨i.val + 4, by have := i.isLt; omega⟩
    freeCount := s.freeCount + 1 }

/-- CLR after acceptance: both buffers, `ILEN` and `OVR` to zero, the field registers unspecified (R183). -/
def State.clearAll (s : State) : State :=
  { s.unspecifyFields with
    ibuf := Vector.replicate 32 0x00, obuf := Vector.replicate 32 0x00, ilen := 0, ovr := false }

/-- The `DIN` push (R186, R36): bytes after the 32nd are counted and discarded, the count sticks at 63. -/
def State.pushByte (s : State) (v : Byte) : State :=
  if s.busy then s.dropWrite
  else
    { s with
      ibuf := if h : s.ilen.toNat < 32 then s.ibuf.set s.ilen.toNat v h else s.ibuf
      ilen := BitVec.ofNat 6 (min (s.ilen.toNat + 1) 63) }

/-- Reset as an event, in any state (R250): every item takes its value of R42, `f[4]` .. `f[15]` become
unspecified, the ROM is not affected. What stands outside the block (the turns to come, the host's replies) stays. -/
def State.resetEvent (s : State) : State :=
  { s.unspecifyFields with
    upc := 0, bitidx := 0, rep := 0
    busy := false, done := false, err := false, ovr := false, errcode := 0
    ilen := 0, ibuf := Vector.replicate 32 0x00, obuf := Vector.replicate 32 0x00 }

end Sys2Proof.Machine
end

