-- ==== Sys2Proof/Machine/Affine.lean ====
section
/-! DEFINITION. The micro-operations of the inversion and the affine conversion, SETR, LOOPR, ENC
(43_inversion_affine.md). -/

namespace Sys2Proof.Machine

/-- SETR (R167). -/
def execSetr (imm8 : BitVec 8) (s : State) : Result := .next { s with rep := imm8 }.advance

/-- LOOPR (R168). -/
def execLoopr (tgt6 : BitVec 6) (s : State) : Result :=
  if s.rep ≠ 0 then .next ({ s with rep := s.rep - 1 }.jump tgt6) else .next s.advance

/-- ENC (R169): all 32 bytes in one micro-step. -/
def execEnc (ra : Reg) (s : State) : Result := .next { s with obuf := le32 (s.readField ra).val }.advance

end Sys2Proof.Machine
end

