-- ==== Sys2Proof/Machine/Commands.lean ====
section
/-! DEFINITION. The host commands CLR, MULBASE, CLAMP, and an illegal `CMD` byte (44_sequencer_and_commands.md).
Each meaning is the whole effect of the `CMD` write of its byte, in any state (R182, R189, R230). -/

namespace Sys2Proof.Machine

/-- CLR (R183). -/
def execClr (s : State) : Result := s.hostCommand State.clearAll

/-- MULBASE (R184): entry 0x02; no check of the clamping (R115). -/
def execMulbase (s : State) : Result := s.hostCommand fun t => t.startProgram 0x02

/-- CLAMP (R185): entry 0x00. -/
def execClamp (s : State) : Result := s.hostCommand fun t => t.startProgram 0x00

/-- A `CMD` byte 0x03 .. 0xFF (R92, R225). -/
def illegalCommand (s : State) : Result := s.hostCommand fun t => t.raiseError .illegalCommand

end Sys2Proof.Machine
end

