-- ==== Sys2Proof/Machine/Control.lean ====
section
/-! DEFINITION. HALT, the end of a microprogram (R181). -/

namespace Sys2Proof.Machine

/-- HALT (R181): `upc` is left at the HALT word. -/
def execHalt (s : State) : Result := .next s.haltFlags

end Sys2Proof.Machine
end

