-- ==== Sys2Proof/Machine/FieldOps.lean ====
section
/-! DEFINITION. The field arithmetic micro-operations FADD, FSUB, FMUL, FSQR (41_field_arithmetic.md). The
sources are read before the destination is written (R9, R254). -/

namespace Sys2Proof.Machine

/-- FADD (R121). -/
def execFadd (rd ra rb : Reg) (s : State) : Result := s.fieldResult rd (feAdd (s.readField ra) (s.readField rb))

/-- FSUB (R122). -/
def execFsub (rd ra rb : Reg) (s : State) : Result := s.fieldResult rd (feSub (s.readField ra) (s.readField rb))

/-- FMUL (R123). -/
def execFmul (rd ra rb : Reg) (s : State) : Result := s.fieldResult rd (feMul (s.readField ra) (s.readField rb))

/-- FSQR (R124). -/
def execFsqr (rd ra : Reg) (s : State) : Result := s.fieldResult rd (feSqr (s.readField ra))

end Sys2Proof.Machine
end

