-- ==== Sys2Proof/Machine/Keygen.lean ====
section
/-! DEFINITION. The clamp (R111) and the micro-operation CLMP (40_keygen_clamp.md). -/

namespace Sys2Proof.Machine

/-- `Clamp(b)` (R111). -/
def clampBytes (b : Vector Byte 32) : Vector Byte 32 :=
  (b.set 0 (b[0] &&& 0xF8)).set 31 ((b[31] &&& 0x7F) ||| 0x40)

/-- CLMP (R113): it does not test `ILEN`. -/
def execClmp (s : State) : Result := .next { s with ibuf := clampBytes s.ibuf }.advance

end Sys2Proof.Machine
end

