-- ==== Sys2Proof/Machine/Ladder.lean ====
section
/-! DEFINITION. The ladder's micro-operations CSWAP, SETI, LOOPI (42_ladder.md). -/

namespace Sys2Proof.Machine

/-- CSWAP (R151): both right-hand sides read the old values; an operand that is a constant register is no legal
micro-operation (R90). -/
def execCswap (ra rb : Reg) (s : State) : Result :=
  if Reg.writable ra && Reg.writable rb then
    .next ((s.writeField ra (blend s.swapMask (s.readField ra) (s.readField rb))).writeField rb
      (blend s.swapMask (s.readField rb) (s.readField ra))).advance
  else .next (s.raiseError .microFault)

/-- SETI (R152). -/
def execSeti (imm8 : BitVec 8) (s : State) : Result := .next { s with bitidx := imm8 }.advance

/-- LOOPI (R153): no wrap from 0 to 255. -/
def execLoopi (tgt6 : BitVec 6) (s : State) : Result :=
  if s.bitidx ≠ 0 then .next ({ s with bitidx := s.bitidx - 1 }.jump tgt6) else .next s.advance

end Sys2Proof.Machine
end

