-- ==== Sys2Proof/Machine/Dispatch.lean ====
section
/-! DEFINITION. One arm per instruction. -/

namespace Sys2Proof.Machine

def exec (i : Instr) (s : State) : Host.Outcome State Fault Refusal :=
  match i with
  | .fadd rd ra rb => Sys2Proof.Machine.execFadd rd ra rb s
  | .fsub rd ra rb => Sys2Proof.Machine.execFsub rd ra rb s
  | .fmul rd ra rb => Sys2Proof.Machine.execFmul rd ra rb s
  | .fsqr rd ra => Sys2Proof.Machine.execFsqr rd ra s
  | .cswap ra rb => Sys2Proof.Machine.execCswap ra rb s
  | .seti imm8 => Sys2Proof.Machine.execSeti imm8 s
  | .setr imm8 => Sys2Proof.Machine.execSetr imm8 s
  | .loopi tgt6 => Sys2Proof.Machine.execLoopi tgt6 s
  | .loopr tgt6 => Sys2Proof.Machine.execLoopr tgt6 s
  | .enc ra => Sys2Proof.Machine.execEnc ra s
  | .clmp => Sys2Proof.Machine.execClmp s
  | .halt => Sys2Proof.Machine.execHalt s
  | .clr => Sys2Proof.Machine.execClr s
  | .mulbase => Sys2Proof.Machine.execMulbase s
  | .clamp => Sys2Proof.Machine.execClamp s

end Sys2Proof.Machine
end

