-- ==== Sys2Proof/Machine/HostPort.lean ====
section
/-! DEFINITION. The host's side: the register window (R32, R62, R63) and the platform's selection of it (R61). -/

namespace Sys2Proof.Machine

/-- The size of the window, 128 bytes (R6). -/
def windowSize : Nat := 0x80

/-- The platform's selection: an address in `BASE` .. `BASE + 0x7F` reaches the block as its offset; any other
address does not reach it (R61, R67). -/
def selectWindow (addr : Nat) : Option Nat :=
  if Config.base ≤ addr ∧ addr < Config.base + windowSize then some (addr - Config.base) else none

/-- `MemRead(BASE + off, 1)`: the byte at an offset of the window (R62; R33, R36, R39 read as 0x00). -/
def State.windowRead (s : State) (off : Nat) : Byte :=
  if off = 0x01 then s.statusByte
  else if off = 0x02 then s.ilen.zeroExtend 8
  else if h : 0x20 ≤ off ∧ off ≤ 0x3F then s.ibuf[off - 0x20]'(by omega)
  else if h : 0x40 ≤ off ∧ off ≤ 0x5F then s.obuf[off - 0x40]'(by omega)
  else 0x00

/-- A write to `CMD` (R33, R182). -/
def commandWrite (v : Byte) (s : State) : Result :=
  match decodeCommand v with
  | .ok i => exec i s
  | .error _ => illegalCommand s

/-- `MemWrite(BASE + off, 1, v)` (R63): only `CMD` and `DIN` take writes. -/
def windowWrite (off : Nat) (v : Byte) (s : State) : Result :=
  if off = 0x00 then commandWrite v s
  else if off = 0x03 then .next (s.pushByte v)
  else .next s

/-- A read's answer goes to the host; the block does not change (R62). -/
def State.reply (s : State) (off : Nat) : State := { s with replies := (off, s.windowRead off) :: s.replies }

/-- One host access: one byte wide (R65) and inside the window (R39), else it has no step. -/
def hostAccess (a : Access) (s : State) : Result :=
  match a with
  | .read off bytes =>
    if bytes ≠ 1 then .refused (.accessWidth bytes)
    else if windowSize ≤ off then .fault (.outsideWindow off)
    else .next (s.reply off)
  | .write off bytes v =>
    if bytes ≠ 1 then .refused (.accessWidth bytes)
    else if windowSize ≤ off then .fault (.outsideWindow off)
    else windowWrite off v s

end Sys2Proof.Machine
end

