-- ==== Sys2Proof/Machine/Sequencer.lean ====
section
/-! DEFINITION. The sequencer: fetch, decode, execute (R180). -/

namespace Sys2Proof.Machine

/-- `ROM[upc]` (R9, R180). -/
def State.fetch (s : State) : Word := s.rom[s.upc.toNat]'s.upc.isLt

/-- The micro-step: an illegal word raises MicroFault, a micro-operation sets `upc` by its own rule (R180, R226). -/
def microStep (s : State) : Result :=
  match decodeMicro s.fetch with
  | .ok i => exec i s
  | .error _ => .next (s.raiseError .microFault)

/-- The sequencer's turn: a micro-step while `BUSY = 1`; while `BUSY = 0` it has no step, and nothing changes
(R10, R180; log 3). -/
def sequencerTurn (s : State) : Result := if s.busy then microStep s else .next s

end Sys2Proof.Machine
end

