-- ==== Sys2Proof/Machine/Step.lean ====
section
/-! DEFINITION. One step of the machine: the next turn of the total order of R69. -/

namespace Sys2Proof.Machine

/-- One atomic step (R10): the next turn, or the sequencer's when no other step is to come (log 3). -/
def step (s : State) : Host.Outcome State Fault Refusal :=
  match s.turns with
  | [] => sequencerTurn s
  | .sequencer :: rest => sequencerTurn { s with turns := rest }
  | .host a :: rest => hostAccess a { s with turns := rest }
  | .reset :: rest => .next { s with turns := rest }.resetEvent

/-- `s` with one table row's word where `step` takes its next instruction: a micro-ROM word at `upc` with the
sequencer running and its turn next, or a `CMD` byte as the next host write (log 9). -/
def State.withFetchWord (s : State) (nbits w : Nat) : State :=
  if nbits = 8 then { s with turns := .host (.write 0x00 1 (BitVec.ofNat 8 w)) :: s.turns }
  else
    { s with
      rom := s.rom.set s.upc.toNat (BitVec.ofNat 16 w) s.upc.isLt
      busy := true
      turns := .sequencer :: s.turns }

end Sys2Proof.Machine
end

