-- ==== Sys2Proof/Machine/Assembly.lean ====
section
/-! DEFINITION. The spec's way of writing instructions (R94), with FMOV as a disassembler prints it (R95). -/

namespace Sys2Proof.Machine

/-- A register is written `f0` .. `f15` (R94). -/
def regText (r : Reg) : String := "f" ++ toString r.val

/-- `MNEMONIC op1, op2, op3`: destination, first source, second source (R94). -/
def lineText (mnemonic : String) (ops : List String) : String :=
  if ops.isEmpty then mnemonic else mnemonic ++ " " ++ String.intercalate ", " ops

/-- The assembly text of an instruction (R94); `FADD rd, ra, f0` prints as `FMOV rd, ra` (R95). -/
def asmText : Instr → String
  | .fadd rd ra rb =>
    if rb = 0 then lineText "FMOV" [regText rd, regText ra]
    else lineText "FADD" [regText rd, regText ra, regText rb]
  | .fsub rd ra rb => lineText "FSUB" [regText rd, regText ra, regText rb]
  | .fmul rd ra rb => lineText "FMUL" [regText rd, regText ra, regText rb]
  | .fsqr rd ra => lineText "FSQR" [regText rd, regText ra]
  | .cswap ra rb => lineText "CSWAP" [regText ra, regText rb]
  | .seti imm8 => lineText "SETI" [toString imm8.toNat]
  | .setr imm8 => lineText "SETR" [toString imm8.toNat]
  | .loopi tgt6 => lineText "LOOPI" [toString tgt6.toNat]
  | .loopr tgt6 => lineText "LOOPR" [toString tgt6.toNat]
  | .enc ra => lineText "ENC" [regText ra]
  | .clmp => lineText "CLMP" []
  | .halt => lineText "HALT" []
  | .clr => lineText "CLR" []
  | .mulbase => lineText "MULBASE" []
  | .clamp => lineText "CLAMP" []

end Sys2Proof.Machine
end

