-- ==== Sys2Proof/Machine/HostProgram.lean ====
section
/-! DEFINITION. The host's sequences of R193 as turns, with the sequencer's micro-steps between a command and its
last poll. -/

namespace Sys2Proof.Machine

/-- `write off, v` (R193). -/
def writeTurn (off : Nat) (v : Byte) : Turn := .host (.write off 1 v)

/-- `read off` (R193). -/
def readTurn (off : Nat) : Turn := .host (.read off 1)

/-- Bytes pushed through `DIN`, the first first (R186, R193). -/
def pushTurns (bs : List Byte) : List Turn := bs.map (writeTurn 0x03)

/-- CLR, then the bytes (R193; R257: CLR before loading). -/
def loadTurns (bs : List Byte) : List Turn := writeTurn 0x00 0x00 :: pushTurns bs

/-- A command, n micro-steps, and the poll that ends it: a read of `STATUS` (R188, R193). -/
def commandTurns (v : Byte) (n : Nat) : List Turn :=
  writeTurn 0x00 v :: List.replicate n .sequencer ++ [readTurn 0x01]

/-- The reads of a 32-byte buffer at an offset (R193). -/
def bufferTurns (off : Nat) : List Turn := (List.range 32).map fun i => readTurn (off + i)

/-- Sequence (a): the public key of a clamped scalar (R193). -/
def publicKeyTurns (n : Nat) (s : Vector Byte 32) : List Turn :=
  loadTurns s.toList ++ commandTurns 0x01 n ++ bufferTurns 0x40

/-- Sequence (b): a key pair from 32 random bytes (R110, R193). -/
def keyPairTurns (n : Nat) (r : Vector Byte 32) : List Turn :=
  loadTurns r.toList ++ commandTurns 0x02 2 ++ bufferTurns 0x20 ++ commandTurns 0x01 n ++ bufferTurns 0x40 ++
    [writeTurn 0x00 0x00]

end Sys2Proof.Machine
end

