-- ==== Sys2Proof/Machine/Reference.lean ====
section
/-! DEFINITION. What the two commands compute, as functions of the 32 input bytes: the ladder (42_ladder.md), the
inversion, the affine conversion and the encoding (43_inversion_affine.md). The microprogram is the other
description (R211, R212), and R213 says that they agree. -/

namespace Sys2Proof.Machine

/-- The two projective points of the ladder: the accumulator point (x2, z2) and the running point (x3, z3)
(R43, conflict C7). -/
structure Points where
  x2 : Fe
  z2 : Fe
  x3 : Fe
  z3 : Fe
deriving DecidableEq, Repr

/-- Before the first iteration: (1, 0) and (9, 1) (R142). -/
def Points.initial : Points := ⟨toFe 1, toFe 0, toFe 9, toFe 1⟩

/-- The swap of the two points when the bit is 1 (R144, R148). -/
def Points.swapIf (bit : Bool) (q : Points) : Points := if bit then ⟨q.x3, q.z3, q.x2, q.z2⟩ else q

/-- The doubling part under RFC (R146) and under DOC (R147), from A = x2 + z2 and B = x2 − z2. -/
def doubling (m : DblMode) (a b : Fe) : Fe × Fe :=
  match m with
  | .rfc =>
    let aa := feSqr a
    let bb := feSqr b
    let e := feSub aa bb
    (feMul aa bb, feMul e (feAdd aa (feMul (toFe 121665) e)))
  | .doc =>
    let t := feMul a b
    let t2 := feAdd t t
    (feSub (feSqr a) (feSqr b), feAdd t2 t2)

/-- The step: the differential addition (R145) and the doubling. -/
def Points.step (m : DblMode) (q : Points) : Points :=
  let a := feAdd q.x2 q.z2
  let b := feSub q.x2 q.z2
  let c := feAdd q.x3 q.z3
  let d := feSub q.x3 q.z3
  let da := feMul d a
  let cb := feMul c b
  let (nx2, nz2) := doubling m a b
  ⟨nx2, nz2, feSqr (feAdd da cb), feMul (toFe 9) (feSqr (feSub da cb))⟩

/-- One iteration: swap, step, swap back on the same bit (R143, R144, R148; conflict C4). -/
def Points.iterate (m : DblMode) (bit : Bool) (q : Points) : Points := ((q.swapIf bit).step m).swapIf bit

/-- The iterations for the bits n − 1, ..., 1, 0 of k, in that order (R143). -/
def ladderFrom (m : DblMode) (k : Nat) : Nat → Points → Points
  | 0, q => q
  | n + 1, q => ladderFrom m k n (q.iterate m (k.testBit n))

/-- `Ladder(b)`: 255 iterations, bits 254 down to 0 of k = LE(b) (R150). -/
def ladder (m : DblMode) (b : Vector Byte 32) : Fe × Fe :=
  let q := ladderFrom m (leValue b) 255 Points.initial
  (q.x2, q.z2)

/-- n rounds of `r = r²; r = r · z` (R162). -/
def squareMultiply (z : Fe) : Nat → Fe → Fe
  | 0, r => r
  | n + 1, r => squareMultiply z n (feMul (feSqr r) z)

/-- `Inv(z)` by the fixed chain for the exponent p − 2 (R160, R161, R162). -/
def fieldInv (z : Fe) : Fe :=
  let r := squareMultiply z 249 z
  let r := feSqr r
  let r := squareMultiply z 1 r
  let r := feSqr r
  squareMultiply z 2 r

/-- `Affine(x2, z2)`, with the case z2 = 0 as the document gives it (R163). -/
def affine (x2 z2 : Fe) : Fe := if z2 ≠ toFe 0 then feMul x2 (fieldInv z2) else toFe 0

/-- `MulBase(b) = LE32(Affine(Ladder(b)))` (R166). -/
def mulBase (m : DblMode) (b : Vector Byte 32) : Vector Byte 32 :=
  let q := ladder m b
  le32 (affine q.1 q.2).val

end Sys2Proof.Machine
end

