-- ==== Sys2Proof/Machine/Timing.lean ====
section
/-! DEFINITION. Time: the number of micro-steps of a command (R215, R260) and cycle counts over the open latencies
(R261). No step depends on any of it. -/

namespace Sys2Proof.Machine

/-- The total micro-steps of MULBASE, from entry to HALT inclusive (R215). -/
def mulbaseSteps : DblMode → Nat
  | .rfc => 6630
  | .doc => 6375

/-- The micro-steps of CLAMP (R215). -/
def clampSteps : Nat := 2

/-- The micro-operation the sequencer would execute in this state, if it has a step and the word is legal (R180). -/
def State.microOp? (s : State) : Option Instr := if s.busy then (decodeMicro s.fetch).toOption else none

/-- The micro-operations of the next n micro-steps when the sequencer alone steps. -/
def microTrace : Nat → State → List Instr
  | 0, _ => []
  | n + 1, s =>
    match s.microOp?, microStep s with
    | some i, .next t => i :: microTrace n t
    | some i, _ => [i]
    | none, _ => []

/-- The latency of an instruction in clock cycles: that of its kind; a host command has none (R260, R261). -/
def latency (i : Instr) : Nat :=
  match i.kind? with
  | some k => Config.lat k
  | none => 0

/-- The cycle count of executed micro-operations: the sum of their latencies (R261). -/
def cyclesOf (ops : List Instr) : Nat := (ops.map latency).sum

end Sys2Proof.Machine
end

