-- ==== Sys2Proof/Safety.lean ====
section
/-! DEFINITION. The terms the statements use: encodings as the spec prints them, frames, invariants, and what the
scalar must not influence. -/

namespace Sys2Proof.Machine

/-- A word with the four hexadecimal digits `op`, `d`, `a`, `b`, the most significant first (R80). -/
def hexWord (op d a b : Nat) : Word := BitVec.ofNat 16 (op * 0x1000 + d * 0x100 + a * 0x10 + b)

/-- The twelve rows of R83: match, mask, and the register constraint of R90 on the word's digits. -/
def microRows : List (Nat × Nat × (Nat → Bool)) :=
  [(0x1000, 0xF000, fun w => decide (4 ≤ w / 0x100 % 0x10)),
   (0x2000, 0xF000, fun w => decide (4 ≤ w / 0x100 % 0x10)),
   (0x3000, 0xF000, fun w => decide (4 ≤ w / 0x100 % 0x10)),
   (0x4000, 0xF00F, fun w => decide (4 ≤ w / 0x100 % 0x10)),
   (0x5000, 0xFF00, fun w => decide (4 ≤ w / 0x10 % 0x10) && decide (4 ≤ w % 0x10)),
   (0x6000, 0xFF00, fun _ => true),
   (0x7000, 0xFF00, fun _ => true),
   (0x8000, 0xFFC0, fun _ => true),
   (0x9000, 0xFFC0, fun _ => true),
   (0xA000, 0xFF0F, fun _ => true),
   (0xB000, 0xFFFF, fun _ => true),
   (0xC000, 0xFFFF, fun _ => true)]

/-- A word is a legal micro-operation by the rows of R83 and the constraints of R90. -/
def legalWord (w : Word) : Bool :=
  microRows.any fun r => w.toNat &&& r.2.1 == r.1 && r.2.2 w.toNat

/-- A field micro-operation's frame: no register but `rd` changes, `upc` advances, nothing else of the state
changes, and so every byte of the window reads as before. -/
def OnlyFieldChanges (rd : Reg) (s t : State) : Prop :=
  (∀ r : Reg, r ≠ rd → t.readField r = s.readField r) ∧
  t = { s with fregs := t.fregs, upc := s.upc + 1 } ∧
  ∀ off : Nat, t.windowRead off = s.windowRead off

/-- The next turn is the sequencer's. -/
def SequencerNext (s : State) : Prop := s.turns = [] ∨ ∃ rest, s.turns = .sequencer :: rest

/-- The next turn is a one-byte host write of `v` at `off`. -/
def WriteNext (off : Nat) (v : Byte) (s : State) : Prop := ∃ rest, s.turns = .host (.write off 1 v) :: rest

/-- The next turn is reset. -/
def ResetNext (s : State) : Prop := ∃ rest, s.turns = .reset :: rest

/-- The sequencer's next step executes `i`. -/
def MicroNext (i : Instr) (s : State) : Prop := SequencerNext s ∧ s.busy = true ∧ decodeMicro s.fetch = .ok i

/-- R34: at most one of `BUSY`, `DONE`, `ERR`; `ERRCODE` is not 0 exactly when `ERR` is 1, and is 0, 1, 3 or 4. -/
abbrev StatusInv (s : State) : Prop :=
  ¬(s.busy = true ∧ s.done = true) ∧ ¬(s.busy = true ∧ s.err = true) ∧ ¬(s.done = true ∧ s.err = true) ∧
  (s.errcode ≠ 0 ↔ s.err = true) ∧ (s.errcode = 0 ∨ s.errcode = 1 ∨ s.errcode = 3 ∨ s.errcode = 4)

/-- With an image of R211 or R212 in the ROM: while a command runs `upc` is at a used word and the length is 32,
the bit index never reaches 255, and no MicroFault is recorded (R91, R226). -/
abbrev ControlInv (m : DblMode) (s : State) : Prop :=
  s.rom = romImage m ∧ (s.busy = true → s.upc.toNat ≤ haltAddr m ∧ s.ilen = 32) ∧ s.bitidx.toNat ≤ 254 ∧
  s.errcode ≠ 4

/-- Bit 7 of `OBUF[31]` is 0, for every encoded value is below 2^255 (R165, R169). -/
abbrev ResultInv (s : State) : Prop := s.obuf[31].getLsbD 7 = false

/-- Two states that agree on everything but the scalar, the result, the field registers, the free values and what
the host has read: on the ROM, `upc`, `bitidx`, `rep`, the status, `ILEN` and the steps to come. -/
def SameControl (s t : State) : Prop :=
  s.rom = t.rom ∧ s.upc = t.upc ∧ s.bitidx = t.bitidx ∧ s.rep = t.rep ∧ s.busy = t.busy ∧ s.done = t.done ∧
  s.err = t.err ∧ s.ovr = t.ovr ∧ s.errcode = t.errcode ∧ s.ilen = t.ilen ∧ s.turns = t.turns

/-- Two outcomes that agree: on control in the next state, or on the reason of a stop. -/
def SameControlOutcome : Host.Outcome State Fault Refusal → Host.Outcome State Fault Refusal → Prop
  | .next s, .next t => SameControl s t
  | .fault a, .fault b => a = b
  | .refused a, .refused b => a = b
  | _, _ => False

/-- A clamped scalar (R112). -/
abbrev Clamped (b : Vector Byte 32) : Prop :=
  b[0].extractLsb' 0 3 = 0 ∧ b[31].getLsbD 7 = false ∧ b[31].getLsbD 6 = true

end Sys2Proof.Machine
end

