-- ==== Sys2Proof/Certificates/Slice0/Obligations.lean ====
section
/-! DEFINITION. The statements about the model, for the provers. A statement about a free value holds for every value
of it. -/

open Sys2Proof Sys2Proof.Machine

/-! Encoding (30_encoding.md) -/

/-- Every well-formed instruction decodes from its own code, with every operand at every value the encoding admits. -/
def Obligations.DecodeOfEncodeIsIdentity : Prop :=
  ∀ i : Instr, i.WellFormed →
    decode (encode i) = .ok i ∧ decodeTableWord (encode i).width (encode i).toNat = some i

/-- A code has at most one meaning: what decodes is well-formed, and encodes to the code it came from. -/
def Obligations.EncodeOfDecodeIsIdentity : Prop :=
  ∀ (c : Code) (i : Instr), decode c = .ok i → i.WellFormed ∧ encode i = c

/-- R90, R91: a word is a micro-operation exactly by the rows of R83 and the register constraints; executing any
other word raises MicroFault and changes no other state. -/
def Obligations.IllegalWordsRaiseMicroFault : Prop :=
  ∀ w : Word,
    ((∃ i, decodeMicro w = .ok i) ↔ legalWord w = true) ∧
    (legalWord w = false → ∀ s : State, s.busy = true → s.fetch = w →
      sequencerTurn s = .next { s with busy := false, done := false, err := true, errcode := 4 })

/-- R84, R92: the three command bytes, and every other byte illegal. -/
def Obligations.CommandBytesAreThree : Prop :=
  decodeCommand 0x00 = .ok .clr ∧ decodeCommand 0x01 = .ok .mulbase ∧ decodeCommand 0x02 = .ok .clamp ∧
  ∀ v : Byte, 3 ≤ v.toNat → decodeCommand v = .error .unknownCommand ∧
    ∀ s : State, s.busy = false →
      commandWrite v s = .next { s with done := false, err := true, errcode := 3 }

/-- Words written out in 95_test_vectors.md B7, legal and illegal. -/
def Obligations.SpecWordsDecodeAsPrinted : Prop :=
  decodeMicro 0x1845 = .ok (.fadd 8 4 5) ∧ decodeMicro 0x2945 = .ok (.fsub 9 4 5) ∧
  decodeMicro 0x3CB8 = .ok (.fmul 12 11 8) ∧ decodeMicro 0x46E0 = .ok (.fsqr 6 14) ∧
  decodeMicro 0x5046 = .ok (.cswap 4 6) ∧ decodeMicro 0x60FE = .ok (.seti 254) ∧
  decodeMicro 0x70F8 = .ok (.setr 248) ∧ decodeMicro 0x8007 = .ok (.loopi 0x07) ∧
  decodeMicro 0x9020 = .ok (.loopr 0x20) ∧ decodeMicro 0xA080 = .ok (.enc 8) ∧
  decodeMicro 0xB000 = .ok .clmp ∧ decodeMicro 0xC000 = .ok .halt ∧
  decodeMicro 0x0000 = .error .unassignedOpcode ∧ decodeMicro 0x1345 = .error .constantRegister ∧
  decodeMicro 0x5146 = .error .nonzeroField ∧ decodeMicro 0x8047 = .error .nonzeroField

/-! Field arithmetic (41_field_arithmetic.md) -/

/-- R121, FADD: its encoding, its result and its frame; for rd < 4 the word is illegal (R90). That `exec` of the
ill-formed term then raises MicroFault, as R91 says of the word, is the model's reading (log 10). -/
def Obligations.FaddWritesSumModP : Prop :=
  ∀ (rd ra rb : Reg) (s : State),
    (4 ≤ rd.val →
      decodeMicro (hexWord 0x1 rd ra rb) = .ok (.fadd rd ra rb) ∧
      ∃ t, exec (.fadd rd ra rb) s = .next t ∧
        (t.readField rd).val = ((s.readField ra).val + (s.readField rb).val) % fieldPrime ∧
        OnlyFieldChanges rd s t) ∧
    (rd.val < 4 →
      decodeMicro (hexWord 0x1 rd ra rb) = .error .constantRegister ∧
      exec (.fadd rd ra rb) s = .next (s.raiseError .microFault))

/-- R122, FSUB: its encoding, its result and its frame; for rd < 4 the word is illegal (R90). That `exec` of the
ill-formed term then raises MicroFault, as R91 says of the word, is the model's reading (log 10). -/
def Obligations.FsubWritesDifferenceModP : Prop :=
  ∀ (rd ra rb : Reg) (s : State),
    (4 ≤ rd.val →
      decodeMicro (hexWord 0x2 rd ra rb) = .ok (.fsub rd ra rb) ∧
      ∃ t, exec (.fsub rd ra rb) s = .next t ∧
        (t.readField rd).val = ((s.readField ra).val + fieldPrime - (s.readField rb).val) % fieldPrime ∧
        OnlyFieldChanges rd s t) ∧
    (rd.val < 4 →
      decodeMicro (hexWord 0x2 rd ra rb) = .error .constantRegister ∧
      exec (.fsub rd ra rb) s = .next (s.raiseError .microFault))

/-- R123, FMUL: its encoding, its result and its frame; for rd < 4 the word is illegal (R90). That `exec` of the
ill-formed term then raises MicroFault, as R91 says of the word, is the model's reading (log 10). -/
def Obligations.FmulWritesProductModP : Prop :=
  ∀ (rd ra rb : Reg) (s : State),
    (4 ≤ rd.val →
      decodeMicro (hexWord 0x3 rd ra rb) = .ok (.fmul rd ra rb) ∧
      ∃ t, exec (.fmul rd ra rb) s = .next t ∧
        (t.readField rd).val = ((s.readField ra).val * (s.readField rb).val) % fieldPrime ∧
        OnlyFieldChanges rd s t) ∧
    (rd.val < 4 →
      decodeMicro (hexWord 0x3 rd ra rb) = .error .constantRegister ∧
      exec (.fmul rd ra rb) s = .next (s.raiseError .microFault))

/-- R124, FSQR: its encoding, its result (that of FMUL rd, ra, ra) and its frame; nonzero bits 3:0 (R91) and rd < 4
(R90) make the word illegal. That `exec` of the ill-formed term raises MicroFault is the model's reading (log 10). -/
def Obligations.FsqrWritesSquareModP : Prop :=
  ∀ (rd ra : Reg) (s : State),
    (4 ≤ rd.val →
      decodeMicro (hexWord 0x4 rd ra 0) = .ok (.fsqr rd ra) ∧
      exec (.fsqr rd ra) s = exec (.fmul rd ra ra) s ∧
      ∃ t, exec (.fsqr rd ra) s = .next t ∧
        (t.readField rd).val = ((s.readField ra).val * (s.readField ra).val) % fieldPrime ∧
        OnlyFieldChanges rd s t) ∧
    (∀ rb : Reg, rb ≠ 0 → decodeMicro (hexWord 0x4 rd ra rb) = .error .nonzeroField) ∧
    (rd.val < 4 →
      decodeMicro (hexWord 0x4 rd ra 0) = .error .constantRegister ∧
      exec (.fsqr rd ra) s = .next (s.raiseError .microFault))

/-- R125: the ring laws of the three operations, and no zero divisors. -/
def Obligations.FieldOperationsObeyRingLaws : Prop :=
  ∀ a b c : Fe,
    feAdd a b = feAdd b a ∧ feMul a b = feMul b a ∧
    feAdd (feAdd a b) c = feAdd a (feAdd b c) ∧ feMul (feMul a b) c = feMul a (feMul b c) ∧
    feMul a (feAdd b c) = feAdd (feMul a b) (feMul a c) ∧
    feAdd a (toFe 0) = a ∧ feMul a (toFe 1) = a ∧ feMul a (toFe 0) = toFe 0 ∧
    feAdd (feSub a b) b = a ∧ feSub a a = toFe 0 ∧ (feSub (toFe 0) a).val = (fieldPrime - a.val) % fieldPrime ∧
    (feMul a b = toFe 0 → a = toFe 0 ∨ b = toFe 0)

/-- R23: the four constants read as 0, 1, 9 and 121665 in every state. A word whose destination field names one of
them is illegal (R23, R90) and raises MicroFault (R91); that `exec` of such a term does the same is the model's reading
(log 10). -/
def Obligations.ConstantRegistersAreHardwired : Prop :=
  ∀ s : State,
    (s.readField 0).val = 0 ∧ (s.readField 1).val = 1 ∧ (s.readField 2).val = 9 ∧ (s.readField 3).val = 121665 ∧
    ∀ i : Instr, ¬ i.WellFormed →
      exec i s = .next { s with busy := false, done := false, err := true, errcode := 4 }

/-- R95: what the four pseudo-instructions write. -/
def Obligations.PseudoInstructionsAsNamed : Prop :=
  ∀ (rd ra : Reg) (s : State), 4 ≤ rd.val →
    (∃ t, exec (.fmov rd ra) s = .next t ∧ t.readField rd = s.readField ra ∧ OnlyFieldChanges rd s t) ∧
    (∃ t, exec (.fdbl rd ra) s = .next t ∧ (t.readField rd).val = (2 * (s.readField ra).val) % fieldPrime ∧
      OnlyFieldChanges rd s t) ∧
    (∃ t, exec (.fclr rd) s = .next t ∧ (t.readField rd).val = 0 ∧ OnlyFieldChanges rd s t) ∧
    (∃ t, exec (.fneg rd ra) s = .next t ∧
      (t.readField rd).val = (fieldPrime - (s.readField ra).val) % fieldPrime ∧ OnlyFieldChanges rd s t)

/-! The ladder's micro-operations (42_ladder.md) and those of the inversion (43_inversion_affine.md) -/

/-- R151, CSWAP: under bit `bitidx` of LE(IBUF) the two registers exchange values, else both keep theirs; its
encoding, its mask, its frame, and the illegal words (R90, R91). That `exec` of the ill-formed term raises MicroFault is
the model's reading (log 10). -/
def Obligations.CswapSwapsUnderScalarBit : Prop :=
  ∀ (ra rb : Reg) (s : State),
    (4 ≤ ra.val → 4 ≤ rb.val →
      decodeMicro (hexWord 0x5 0 ra rb) = .ok (.cswap ra rb) ∧
      ∃ t, exec (.cswap ra rb) s = .next t ∧
        s.swapMask = (if (leValue s.ibuf).testBit s.bitidx.toNat then BitVec.allOnes 255 else 0) ∧
        t.readField ra = (if (leValue s.ibuf).testBit s.bitidx.toNat then s.readField rb else s.readField ra) ∧
        t.readField rb = (if (leValue s.ibuf).testBit s.bitidx.toNat then s.readField ra else s.readField rb) ∧
        (∀ r : Reg, r ≠ ra → r ≠ rb → t.readField r = s.readField r) ∧
        t = { s with fregs := t.fregs, upc := s.upc + 1 } ∧
        ∀ off : Nat, t.windowRead off = s.windowRead off) ∧
    (∀ d : Reg, d ≠ 0 → decodeMicro (hexWord 0x5 d ra rb) = .error .nonzeroField) ∧
    (ra.val < 4 ∨ rb.val < 4 →
      decodeMicro (hexWord 0x5 0 ra rb) = .error .constantRegister ∧
      exec (.cswap ra rb) s = .next (s.raiseError .microFault))

/-- R152 and R167: SETI writes `bitidx`, SETR writes `rep`, and nothing else but `upc` changes. -/
def Obligations.SetiAndSetrLoadCounters : Prop :=
  ∀ (v : BitVec 8) (s : State),
    decodeMicro (BitVec.ofNat 16 (0x6000 + v.toNat)) = .ok (.seti v) ∧
    exec (.seti v) s = .next { s with bitidx := v, upc := s.upc + 1 } ∧
    (∀ w : Word, w.toNat / 0x1000 = 0x6 → w.toNat / 0x100 % 0x10 ≠ 0 → decodeMicro w = .error .nonzeroField) ∧
    decodeMicro (BitVec.ofNat 16 (0x7000 + v.toNat)) = .ok (.setr v) ∧
    exec (.setr v) s = .next { s with rep := v, upc := s.upc + 1 } ∧
    ∀ w : Word, w.toNat / 0x1000 = 0x7 → w.toNat / 0x100 % 0x10 ≠ 0 → decodeMicro w = .error .nonzeroField

/-- R153, LOOPI: a counter that is not 0 is decremented and the target taken, 0 falls through and stays 0. -/
def Obligations.LoopiCountsBitIndexDown : Prop :=
  ∀ (tgt : BitVec 6) (s : State),
    decodeMicro (BitVec.ofNat 16 (0x8000 + tgt.toNat)) = .ok (.loopi tgt) ∧
    (s.bitidx ≠ 0 → ∃ t, exec (.loopi tgt) s = .next t ∧ t.bitidx.toNat + 1 = s.bitidx.toNat ∧ t.upc = tgt ∧
      t = { s with bitidx := t.bitidx, upc := t.upc }) ∧
    (s.bitidx = 0 → exec (.loopi tgt) s = .next { s with upc := s.upc + 1 }) ∧
    ∀ w : Word, w.toNat / 0x1000 = 0x8 → w.toNat / 0x40 % 0x40 ≠ 0 → decodeMicro w = .error .nonzeroField

/-- R168, LOOPR: a counter that is not 0 is decremented and the target taken, 0 falls through and stays 0. -/
def Obligations.LooprCountsRepeatDown : Prop :=
  ∀ (tgt : BitVec 6) (s : State),
    decodeMicro (BitVec.ofNat 16 (0x9000 + tgt.toNat)) = .ok (.loopr tgt) ∧
    (s.rep ≠ 0 → ∃ t, exec (.loopr tgt) s = .next t ∧ t.rep.toNat + 1 = s.rep.toNat ∧ t.upc = tgt ∧
      t = { s with rep := t.rep, upc := t.upc }) ∧
    (s.rep = 0 → exec (.loopr tgt) s = .next { s with upc := s.upc + 1 }) ∧
    ∀ w : Word, w.toNat / 0x1000 = 0x9 → w.toNat / 0x40 % 0x40 ≠ 0 → decodeMicro w = .error .nonzeroField

/-- R169, ENC: the 32 little-endian bytes of the register, in one step; every other byte of the window reads as
before, and no register changes. -/
def Obligations.EncWritesLittleEndianBytes : Prop :=
  ∀ (ra : Reg) (s : State),
    decodeMicro (hexWord 0xA 0 ra 0) = .ok (.enc ra) ∧
    (∀ d b : Reg, d ≠ 0 ∨ b ≠ 0 → decodeMicro (hexWord 0xA d ra b) = .error .nonzeroField) ∧
    ∃ t, exec (.enc ra) s = .next t ∧
      (∀ (i : Nat) (h : i < 32), t.obuf[i].toNat = (s.readField ra).val / 2 ^ (8 * i) % 256) ∧
      leValue t.obuf = (s.readField ra).val ∧ t.obuf[31].getLsbD 7 = false ∧
      t = { s with obuf := t.obuf, upc := s.upc + 1 } ∧
      ∀ off : Nat, ¬(0x40 ≤ off ∧ off ≤ 0x5F) → t.windowRead off = s.windowRead off

/-- R113, CLMP: bytes 0 and 31 of IBUF are clamped in place; every other byte of the window reads as before. -/
def Obligations.ClmpClampsInputBuffer : Prop :=
  decodeMicro 0xB000 = .ok .clmp ∧
  (∀ w : Word, w.toNat / 0x1000 = 0xB → w ≠ 0xB000 → decodeMicro w = .error .nonzeroField) ∧
  ∀ s : State, ∃ t, exec .clmp s = .next t ∧
    t.ibuf[0] = s.ibuf[0] &&& 0xF8 ∧ t.ibuf[31] = (s.ibuf[31] &&& 0x7F) ||| 0x40 ∧
    (∀ (i : Nat) (h : i < 32), i ≠ 0 → i ≠ 31 → t.ibuf[i] = s.ibuf[i]) ∧
    t.ibuf = clampBytes s.ibuf ∧
    t = { s with ibuf := t.ibuf, upc := s.upc + 1 } ∧
    ∀ off : Nat, off ≠ 0x20 → off ≠ 0x3F → t.windowRead off = s.windowRead off

/-- R181, HALT: BUSY to 0 and DONE to 1; `upc` stays at the HALT word, and nothing else changes. -/
def Obligations.HaltEndsTheMicroprogram : Prop :=
  decodeMicro 0xC000 = .ok .halt ∧
  (∀ w : Word, w.toNat / 0x1000 = 0xC → w ≠ 0xC000 → decodeMicro w = .error .nonzeroField) ∧
  ∀ s : State, exec .halt s = .next { s with busy := false, done := true }

/-! The host commands and accesses (44_sequencer_and_commands.md, 20_memory.md, 60_exceptions.md) -/

/-- R183, CLR with BUSY = 0: every byte of the window reads 0x00 afterwards; `upc`, `bitidx`, `rep` and the constants
are unchanged; `f[4]` .. `f[15]` become unspecified, so nothing is said of them. With BUSY = 1 it is dropped. -/
def Obligations.ClrClearsBuffersAndStatus : Prop :=
  ∀ s : State,
    (s.busy = false →
      ∃ t, exec .clr s = .next t ∧ (∀ off : Nat, t.windowRead off = 0) ∧
        (∀ r : Reg, r.val < 4 → t.readField r = s.readField r) ∧
        t = { s with
          done := false, err := false, errcode := 0, ovr := false, ilen := 0
          ibuf := Vector.replicate 32 0, obuf := Vector.replicate 32 0
          fregs := t.fregs, freeCount := t.freeCount }) ∧
    (s.busy = true → exec .clr s = .next { s with ovr := true })

/-- MULBASE and CLAMP accepted with 32 bytes in the buffer: the flags of R182, BUSY, and the entry point; nothing else
changes. What the microprograms then do is `MulbaseCommandYieldsMulBase` and `ClampCommandClampsInPlace`. -/
def Obligations.CommandsStartTheirPrograms : Prop :=
  ∀ s : State, s.busy = false → s.ilen = 32 →
    exec .mulbase s = .next { s with done := false, err := false, errcode := 0, busy := true, upc := 0x02 } ∧
    exec .clamp s = .next { s with done := false, err := false, errcode := 0, busy := true, upc := 0x00 }

/-- R222: with any other length the two commands raise InvalidScalarLength, code 1, and change nothing else. -/
def Obligations.WrongLengthRaisesInvalidScalarLength : Prop :=
  ∀ s : State, s.busy = false → s.ilen ≠ 32 →
    exec .mulbase s = .next { s with busy := false, done := false, err := true, errcode := 1 } ∧
    exec .clamp s = .next { s with busy := false, done := false, err := true, errcode := 1 }

/-- R224: the one error entry changes the four status items and nothing else. -/
def Obligations.RaiseChangesOnlyStatus : Prop :=
  ∀ (e : ErrKind) (s : State),
    (s.raiseError e).busy = false ∧ (s.raiseError e).done = false ∧ (s.raiseError e).err = true ∧
    (s.raiseError e).errcode = e.code ∧
    s.raiseError e = { s with busy := false, done := false, err := true, errcode := e.code } ∧
    (∀ r : Reg, (s.raiseError e).readField r = s.readField r) ∧
    (∀ off : Nat, off ≠ 1 → (s.raiseError e).windowRead off = s.windowRead off) ∧
    ErrKind.code .invalidScalarLength = 1 ∧ ErrKind.code .entropySourceUnavailable = 2 ∧
    ErrKind.code .illegalCommand = 3 ∧ ErrKind.code .microFault = 4

/-- The order of the checks of a CMD write: busy, then the byte, then the length; and a micro-step that raises
raises MicroFault (R230). -/
def Obligations.CommandChecksHavePriority : Prop :=
  (∀ (v : Byte) (s : State),
    (s.busy = true → commandWrite v s = .next { s with ovr := true }) ∧
    (s.busy = false → 3 ≤ v.toNat → ∃ t, commandWrite v s = .next t ∧ t.err = true ∧ t.errcode = 3) ∧
    (s.busy = false → v = 1 ∨ v = 2 → s.ilen ≠ 32 →
      ∃ t, commandWrite v s = .next t ∧ t.err = true ∧ t.errcode = 1)) ∧
  ∀ s t : State, s.busy = true → s.err = false → sequencerTurn s = .next t → t.err = true → t.errcode = 4

/-- R186: a push with BUSY = 0 stores one of the first 32 bytes, counts every byte, and sticks at 63; with BUSY = 1 it
is dropped. -/
def Obligations.DinPushStoresAndCounts : Prop :=
  ∀ (v : Byte) (s : State),
    (s.busy = false →
      ∃ t, windowWrite 0x03 v s = .next t ∧
        (∀ (i : Nat) (h : i < 32), t.ibuf[i] = if i = s.ilen.toNat then v else s.ibuf[i]) ∧
        t.ilen.toNat = min (s.ilen.toNat + 1) 63 ∧
        t = { s with ibuf := t.ibuf, ilen := t.ilen }) ∧
    (s.busy = true → windowWrite 0x03 v s = .next { s with ovr := true })

/-- Any number of bytes pushed after a CLR or reset: the first is byte 0, bytes after the 32nd are discarded, and the
count saturates. -/
def Obligations.PushedBytesFillTheBuffer : Prop :=
  ∀ (bs : List Byte) (s : State), s.busy = false → s.ilen = 0 → s.turns = pushTurns bs →
    ∃ t : State, Host.Core.run Sys2Proof.core bs.length s = .next t ∧
      t.ilen.toNat = min bs.length 63 ∧
      (∀ (i : Nat) (h : i < 32), t.ibuf[i] = bs.getD i s.ibuf[i]) ∧
      t = { s with ibuf := t.ibuf, ilen := t.ilen, turns := [] }

/-- R62: the byte at every offset of the window; a read answers it and changes nothing in the block. -/
def Obligations.WindowReadsAsMapped : Prop :=
  ∀ s : State,
    s.windowRead 0x00 = 0 ∧
    (s.windowRead 0x01).toNat =
      s.errcode.toNat * 16 + s.ovr.toNat * 8 + s.err.toNat * 4 + s.done.toNat * 2 + s.busy.toNat ∧
    (s.windowRead 0x02).toNat = s.ilen.toNat ∧ s.windowRead 0x03 = 0 ∧
    (∀ off : Nat, 0x04 ≤ off → off ≤ 0x1F → s.windowRead off = 0) ∧
    (∀ (i : Nat) (h : i < 32), s.windowRead (0x20 + i) = s.ibuf[i]) ∧
    (∀ (i : Nat) (h : i < 32), s.windowRead (0x40 + i) = s.obuf[i]) ∧
    (∀ off : Nat, 0x60 ≤ off → off ≤ 0x7F → s.windowRead off = 0) ∧
    ∀ off : Nat, off ≤ 0x7F →
      hostAccess (.read off 1) s = .next { s with replies := (off, s.windowRead off) :: s.replies }

/-- R63: a write of CMD is a command, a write of DIN a push, and a write anywhere else in the window does nothing. -/
def Obligations.WindowWritesAsMapped : Prop :=
  ∀ (v : Byte) (s : State),
    hostAccess (.write 0x00 1 v) s = commandWrite v s ∧
    hostAccess (.write 0x03 1 v) s = .next (s.pushByte v) ∧
    ∀ off : Nat, off ≤ 0x7F → off ≠ 0x00 → off ≠ 0x03 → hostAccess (.write off 1 v) s = .next s

/-- The two accesses the spec gives no step: a width other than one byte is refused (R65, U7), and an offset outside the
block (R39) faults, where U8 says refuse: the fault is the model's choice (log 12). The platform's selection gives the
block offsets below 0x80 only. -/
def Obligations.AccessesOutsideTheBlockStop : Prop :=
  (∀ (off bytes : Nat) (v : Byte) (s : State),
    (bytes ≠ 1 → hostAccess (.read off bytes) s = .refused (.accessWidth bytes) ∧
      hostAccess (.write off bytes v) s = .refused (.accessWidth bytes)) ∧
    (0x80 ≤ off → hostAccess (.read off 1) s = .fault (.outsideWindow off) ∧
      hostAccess (.write off 1 v) s = .fault (.outsideWindow off))) ∧
  ∀ addr off : Nat, selectWindow addr = some off ↔ addr = Config.base + off ∧ off < 0x80

/-! Steps, reset and the sequencer -/

/-- R180: a step of the sequencer with BUSY = 1 is `exec` of the instruction that the word at `upc` decodes to, after
the turn is taken from the list; an illegal word raises MicroFault; with BUSY = 0 there is no step. -/
def Obligations.MicroStepRunsTheDecodedWord : Prop :=
  ∀ (s : State) (rest : List Turn),
    (∀ i : Instr, s.busy = true → decodeMicro (s.rom[s.upc.toNat]'s.upc.isLt) = .ok i →
      (s.turns = [] → step s = exec i s) ∧
      (s.turns = .sequencer :: rest → step s = exec i { s with turns := rest })) ∧
    (∀ e : DecodeError, s.busy = true → decodeMicro (s.rom[s.upc.toNat]'s.upc.isLt) = .error e →
      (s.turns = [] → step s = .next (s.raiseError .microFault)) ∧
      (s.turns = .sequencer :: rest → step s = .next ({ s with turns := rest }.raiseError .microFault))) ∧
    (s.busy = false →
      (s.turns = [] → step s = .next s) ∧ (s.turns = .sequencer :: rest → step s = .next { s with turns := rest }))

/-- A step whose turn is a CMD write is `exec` of the command the byte decodes to, in any state. -/
def Obligations.CommandStepRunsTheDecodedByte : Prop :=
  ∀ (s : State) (v : Byte) (i : Instr) (rest : List Turn),
    decodeCommand v = .ok i → s.turns = .host (.write 0x00 1 v) :: rest →
      step s = exec i { s with turns := rest }

/-- R42, with `f[4]` .. `f[15]` at ANY values, which is how the rule leaves them, and for both values of `DBL_MODE`.
(`State.reset` is this state for the model's own choices, log 1 and log 5; no statement rests on them.) -/
def Obligations.ResetStateAsTabled : Prop :=
  ∀ (m : DblMode) (unspecified : Vector Fe 12),
    let s := State.afterReset m unspecified
    (s.readField 0).val = 0 ∧ (s.readField 1).val = 1 ∧ (s.readField 2).val = 9 ∧ (s.readField 3).val = 121665 ∧
    s.upc = 0 ∧ s.bitidx = 0 ∧ s.rep = 0 ∧ s.busy = false ∧ s.done = false ∧ s.err = false ∧ s.ovr = false ∧
    s.errcode = 0 ∧ s.ilen = 0 ∧ s.rom = romImage m ∧ ∀ off : Nat, s.windowRead off = 0

/-- R250: reset in any state, also while BUSY: every item takes its reset value, the ROM and the constants stay, and
nothing is said of `f[4]` .. `f[15]`. -/
def Obligations.ResetEventSetsEveryItem : Prop :=
  ∀ (s : State) (rest : List Turn), s.turns = .reset :: rest →
    ∃ t, step s = .next t ∧
      (∀ off : Nat, t.windowRead off = 0) ∧ (∀ r : Reg, r.val < 4 → t.readField r = s.readField r) ∧
      t = { s with
        upc := 0, bitidx := 0, rep := 0, busy := false, done := false, err := false, ovr := false, errcode := 0
        ilen := 0, ibuf := Vector.replicate 32 0, obuf := Vector.replicate 32 0, turns := rest
        fregs := t.fregs, freeCount := t.freeCount }

/-- `exec` answers a next state for every instruction in every state: the model never stops there. This is not
completion: a dropped or wrong-length command (log 11) and an ill-formed term (log 10) answer a state without the
instruction's effect. R228 is the second clause: no legal micro-operation changes an error item or OVR. -/
def Obligations.NoMicroOperationRaises : Prop :=
  ∀ (i : Instr) (s : State),
    (∃ t, exec i s = .next t) ∧
    (i.WellFormed → i.kind? ≠ none →
      ∃ t, exec i s = .next t ∧ t.err = s.err ∧ t.errcode = s.errcode ∧ t.ovr = s.ovr)

/-- The only micro-operations that set `upc` to something other than `upc + 1` are a taken LOOPI and a taken LOOPR, to
their targets; HALT leaves it (R190, R27), and so does an ill-formed term, by the model's reading (log 10). -/
def Obligations.OnlyLoopsTransferControl : Prop :=
  ∀ (i : Instr) (s t : State), i.kind? ≠ none → exec i s = .next t →
    t.upc = s.upc + 1 ∨
    (t.upc = s.upc ∧ (i = .halt ∨ ¬ i.WellFormed)) ∨
    (∃ tgt, i = .loopi tgt ∧ s.bitidx ≠ 0 ∧ t.upc = tgt) ∨
    (∃ tgt, i = .loopr tgt ∧ s.rep ≠ 0 ∧ t.upc = tgt)

/-! Whole-machine rules -/

/-- R72: no step changes the micro-ROM. -/
def Obligations.RomNeverChanges : Prop := ∀ s t : State, step s = .next t → t.rom = s.rom

/-- The field registers are written only by FADD, FSUB, FMUL, FSQR and CSWAP, by an accepted CLR, and by reset; no
other host access touches them (R24). -/
def Obligations.FieldRegistersWrittenOnlyBy : Prop :=
  ∀ s t : State, step s = .next t → t.fregs ≠ s.fregs →
    (∃ rd ra rb, MicroNext (.fadd rd ra rb) s ∨ MicroNext (.fsub rd ra rb) s ∨ MicroNext (.fmul rd ra rb) s) ∨
    (∃ ra rb, MicroNext (.fsqr ra rb) s ∨ MicroNext (.cswap ra rb) s) ∨
    (WriteNext 0x00 0x00 s ∧ s.busy = false) ∨ ResetNext s

/-- IBUF is written only by a push of one of the first 32 bytes, by CLMP, by an accepted CLR, and by reset (R37). -/
def Obligations.InputBufferWrittenOnlyBy : Prop :=
  ∀ s t : State, step s = .next t → t.ibuf ≠ s.ibuf →
    (∃ v, WriteNext 0x03 v s ∧ s.busy = false ∧ s.ilen.toNat < 32) ∨ MicroNext .clmp s ∨
    (WriteNext 0x00 0x00 s ∧ s.busy = false) ∨ ResetNext s

/-- OBUF is written only by ENC, by an accepted CLR, and by reset (R38). -/
def Obligations.OutputBufferWrittenOnlyBy : Prop :=
  ∀ s t : State, step s = .next t → t.obuf ≠ s.obuf →
    (∃ ra, MicroNext (.enc ra) s) ∨ (WriteNext 0x00 0x00 s ∧ s.busy = false) ∨ ResetNext s

/-- R189, R240: every CMD or DIN write while BUSY sets OVR and changes nothing else (no error item, not the running
command); nothing else sets OVR; only an accepted CLR and reset clear it. -/
def Obligations.OverrunIsStickyAndHarmless : Prop :=
  ∀ s t : State, step s = .next t →
    (∀ v, s.busy = true → WriteNext 0x00 v s ∨ WriteNext 0x03 v s → t = { s with ovr := true, turns := s.turns.tail }) ∧
    (s.ovr = false → t.ovr = true → s.busy = true ∧ ∃ v, WriteNext 0x00 v s ∨ WriteNext 0x03 v s) ∧
    (s.ovr = true → t.ovr = false → (WriteNext 0x00 0x00 s ∧ s.busy = false) ∨ ResetNext s)

/-- The status invariant of R34, kept by every step from every state that meets it. -/
def Obligations.StatusInvariantIsKept : Prop := ∀ s t : State, StatusInv s → step s = .next t → StatusInv t

/-- With either image in the ROM, no step executes an illegal word: `upc` stays on the used words while a command
runs, and MicroFault is never recorded (R91, R226). -/
def Obligations.MicroFaultIsUnreachable : Prop :=
  ∀ (m : DblMode) (s t : State), ControlInv m s → step s = .next t → ControlInv m t

/-- Bit 7 of OBUF[31] stays 0 in every step (R165, R38). -/
def Obligations.ResultTopBitStaysClear : Prop := ∀ s t : State, ResultInv s → step s = .next t → ResultInv t

/-- The three invariants hold after reset, in both modes and whatever the unspecified registers hold, and so at
`State.reset`. -/
def Obligations.InvariantsHoldAfterReset : Prop :=
  (∀ (m : DblMode) (unspecified : Vector Fe 12),
    StatusInv (State.afterReset m unspecified) ∧ ControlInv m (State.afterReset m unspecified) ∧
    ResultInv (State.afterReset m unspecified)) ∧
  StatusInv State.reset ∧ ControlInv Config.dblMode State.reset ∧ ResultInv State.reset

/-- R262 (a): what a step does to the control of the machine, and which micro-operation it executes, does not depend on
IBUF, on OBUF or on any field register. -/
def Obligations.ControlIsIndependentOfSecrets : Prop :=
  ∀ s t : State, SameControl s t → s.microOp? = t.microOp? ∧ SameControlOutcome (step s) (step t)

/-- The sequence of micro-operations of any number of micro-steps, and so its duration under every latency that depends
on the kind alone, is the same for every scalar (R262, R261). -/
def Obligations.DurationIsIndependentOfSecrets : Prop :=
  ∀ (n : Nat) (s t : State), SameControl s t →
    microTrace n s = microTrace n t ∧ cyclesOf (microTrace n s) = cyclesOf (microTrace n t)

/-! What the commands compute -/

/-- `Clamp(b)` is clamped, idempotent, and the identity exactly on clamped b; a clamped scalar lies between 2^254 and
2^255 and is a multiple of 8 (R112). -/
def Obligations.ClampEstablishesTheInvariant : Prop :=
  ∀ b : Vector Byte 32,
    Clamped (clampBytes b) ∧ clampBytes (clampBytes b) = clampBytes b ∧ (clampBytes b = b ↔ Clamped b) ∧
    (Clamped b → 2 ^ 254 ≤ leValue b ∧ leValue b < 2 ^ 255 ∧ 8 ∣ leValue b)

/-- Bit n of LE(b) is bit `n mod 8` of byte `n div 8` (R8), and LE32 and LE are inverse to each other. -/
def Obligations.LittleEndianFormsAgree : Prop :=
  (∀ (b : Vector Byte 32) (n : BitVec 8), (leValue b).testBit n.toNat = byteBit b n) ∧
  (∀ v : Nat, v < 2 ^ 256 → leValue (le32 v) = v) ∧
  ∀ b : Vector Byte 32, leValue b < 2 ^ 256 ∧ le32 (leValue b) = b

/-- R160, R161, R162: the fixed chain computes z^(p−2) mod p, with p − 2 = 2^255 − 21; it is the inverse of every
nonzero z, and 0 for 0. -/
def Obligations.InversionChainComputesInverse : Prop :=
  fieldPrime - 2 = 2 ^ 255 - 21 ∧
  (∀ z : Fe, (fieldInv z).val = z.val ^ (fieldPrime - 2) % fieldPrime) ∧
  (∀ z : Fe, z ≠ toFe 0 → (z.val * (fieldInv z).val) % fieldPrime = 1) ∧
  fieldInv (toFe 0) = toFe 0

/-- R164: the product with the inverse needs no test of z2. -/
def Obligations.AffineNeedsNoZeroTest : Prop :=
  ∀ x z : Fe, affine x z = feMul x (fieldInv z) ∧ (affine x z).val = x.val * z.val ^ (fieldPrime - 2) % fieldPrime

/-- Bit 255 of the scalar is never read by the ladder: flipping it changes nothing (R140). -/
def Obligations.LadderIgnoresBit255 : Prop :=
  ∀ (m : DblMode) (b : Vector Byte 32),
    ladder m (b.set 31 (b[31] ^^^ 0x80)) = ladder m b ∧ mulBase m (b.set 31 (b[31] ^^^ 0x80)) = mulBase m b

/-- The all-zero scalar gives 32 zero bytes in both modes; under RFC the ladder ends at (1, 0), under DOC with x2 = 0
and z2 not 0 (R170). -/
def Obligations.ZeroScalarGivesZeroBytes : Prop :=
  (∀ m : DblMode, mulBase m (Vector.replicate 32 0) = Vector.replicate 32 0) ∧
  ladder .rfc (Vector.replicate 32 0) = (toFe 1, toFe 0) ∧
  (ladder .doc (Vector.replicate 32 0)).1 = toFe 0 ∧ (ladder .doc (Vector.replicate 32 0)).2 ≠ toFe 0

/-- R185: CLAMP with 32 bytes runs its two micro-steps and leaves IBUF clamped, DONE = 1, BUSY = 0, nothing else changed
but the status of R182 and `upc`; with another length it raises InvalidScalarLength. -/
def Obligations.ClampCommandClampsInPlace : Prop :=
  ∀ (m : DblMode) (s : State), s.rom = romImage m → s.turns = [] → s.busy = false →
    (s.ilen = 32 →
      ∃ s1 : State, exec .clamp s = .next s1 ∧ s1.busy = true ∧ s1.upc = 0x00 ∧
        Host.Core.run Sys2Proof.core clampSteps s1 =
          .next { s with
            ibuf := clampBytes s.ibuf, upc := 0x01, busy := false, done := true, err := false, errcode := 0 }) ∧
    (s.ilen ≠ 32 → exec .clamp s = .next (s.raiseError .invalidScalarLength))

/-- R213: from its entry, with either image, the microprogram of MULBASE takes exactly the tabled number of micro-steps,
BUSY before each of them, and ends with the ladder's result in X2, Z2, the affine value in R, and OBUF = MulBase(IBUF),
whatever the field registers held; IBUF, ILEN and all else unchanged. From 0x00 either image clamps IBUF in 2. No other
step is interleaved; what a host access between them does is `HostCannotDisturbARunningCommand`. -/
def Obligations.MicroprogramsComputeTheirFunctions : Prop :=
  ∀ (m : DblMode) (s : State), s.rom = romImage m → s.turns = [] → s.busy = true →
    (s.upc = 0x02 →
      (∀ n : Nat, n < mulbaseSteps m → ∃ t : State, Host.Core.run Sys2Proof.core n s = .next t ∧ t.busy = true) ∧
      ∃ t : State, Host.Core.run Sys2Proof.core (mulbaseSteps m) s = .next t ∧
        (t.readField Reg.X2, t.readField Reg.Z2) = ladder m s.ibuf ∧
        t.readField Reg.R = affine (ladder m s.ibuf).1 (ladder m s.ibuf).2 ∧
        t.obuf = mulBase m s.ibuf ∧ t.upc.toNat = haltAddr m ∧
        t = { s with
          fregs := t.fregs, obuf := t.obuf, bitidx := 0, rep := 0, upc := t.upc, busy := false, done := true }) ∧
    (s.upc = 0x00 →
      Host.Core.run Sys2Proof.core clampSteps s =
        .next { s with ibuf := clampBytes s.ibuf, upc := 0x01, busy := false, done := true })

/-- R184: an accepted MULBASE with 32 bytes in the buffer starts at 0x02 with OBUF still the old one, and ends, after its
micro-steps, with OBUF = MulBase(IBUF), STATUS saying DONE (with OVR as it was), and IBUF and ILEN unchanged; with another
length it raises InvalidScalarLength. No other step is interleaved (see `HostCannotDisturbARunningCommand`). -/
def Obligations.MulbaseCommandYieldsMulBase : Prop :=
  ∀ (m : DblMode) (s : State), s.rom = romImage m → s.turns = [] → s.busy = false →
    (s.ilen = 32 →
      ∃ s1 t : State, exec .mulbase s = .next s1 ∧ s1.busy = true ∧ s1.upc = 0x02 ∧ s1.obuf = s.obuf ∧
        Host.Core.run Sys2Proof.core (mulbaseSteps m) s1 = .next t ∧
        t.obuf = mulBase m s.ibuf ∧ t.ibuf = s.ibuf ∧ t.ilen = s.ilen ∧
        t.busy = false ∧ t.done = true ∧ t.err = false ∧ t.errcode = 0 ∧ t.ovr = s.ovr ∧ t.rom = s.rom) ∧
    (s.ilen ≠ 32 → exec .mulbase s = .next (s.raiseError .invalidScalarLength))

/-- While a command runs, a host access inside the window changes nothing of the block but OVR: not IBUF, not ILEN, not
the command in progress (R69, R189). -/
def Obligations.HostCannotDisturbARunningCommand : Prop :=
  ∀ (s : State) (a : Access) (rest : List Turn), s.busy = true → s.turns = .host a :: rest →
    (∀ off bytes, a = .read off bytes → bytes = 1 ∧ off ≤ 0x7F) →
    (∀ off bytes v, a = .write off bytes v → bytes = 1 ∧ off ≤ 0x7F) →
    ∃ t, step s = .next t ∧ t = { s with turns := rest, ovr := t.ovr, replies := t.replies }
end

