-- ==== Sys2Proof/Laws/Encoding.lean ====
section
/-! SUPPORT. The fields of a packed word (R80). -/

namespace Sys2Proof.Laws

/-- An accepted instruction had zero must-be-zero bits and a met register constraint (R90, R91). -/
theorem accept_eq_ok {zeros regs : Bool} {i j : Instr} (h : accept zeros regs i = .ok j) :
    zeros = true ∧ regs = true ∧ j = i := by
  cases zeros <;> cases regs <;> simp [accept] at h
  simp [h]

@[simp] theorem wordOp_packRegs (op : BitVec 4) (rd ra rb : Reg) : wordOp (packRegs op rd ra rb) = op := by
  apply BitVec.eq_of_getLsbD_eq
  intro i hi
  simp only [wordOp, packRegs, BitVec.getLsbD_extractLsb', BitVec.getLsbD_append]
  have h1 : ¬ 12 + i < 4 := by omega
  have h2 : ¬ 12 + i - 4 < 4 := by omega
  have h3 : ¬ 12 + i - 4 - 4 < 4 := by omega
  simp [h1, h2, h3, hi, show 12 + i - 4 - 4 - 4 = i by omega]

@[simp] theorem wordRd_packRegs (op : BitVec 4) (rd ra rb : Reg) : wordRd (packRegs op rd ra rb) = rd := by
  have h : (packRegs op rd ra rb).extractLsb' 8 4 = BitVec.ofFin (w := 4) rd := by
    apply BitVec.eq_of_getLsbD_eq
    intro i hi
    simp only [packRegs, BitVec.getLsbD_extractLsb', BitVec.getLsbD_append]
    have h1 : ¬ 8 + i < 4 := by omega
    have h2 : ¬ 8 + i - 4 < 4 := by omega
    have h3 : 8 + i - 4 - 4 < 4 := by omega
    simp [h1, h2, hi, show 8 + i - 4 - 4 = i by omega]
  rw [wordRd, h]

@[simp] theorem wordRa_packRegs (op : BitVec 4) (rd ra rb : Reg) : wordRa (packRegs op rd ra rb) = ra := by
  have h : (packRegs op rd ra rb).extractLsb' 4 4 = BitVec.ofFin (w := 4) ra := by
    apply BitVec.eq_of_getLsbD_eq
    intro i hi
    simp only [packRegs, BitVec.getLsbD_extractLsb', BitVec.getLsbD_append]
    have h1 : ¬ 4 + i < 4 := by omega
    simp [h1, hi, show 4 + i - 4 = i by omega]
  rw [wordRa, h]

@[simp] theorem wordRb_packRegs (op : BitVec 4) (rd ra rb : Reg) : wordRb (packRegs op rd ra rb) = rb := by
  have h : (packRegs op rd ra rb).extractLsb' 0 4 = BitVec.ofFin (w := 4) rb := by
    apply BitVec.eq_of_getLsbD_eq
    intro i hi
    simp only [packRegs, BitVec.getLsbD_extractLsb', BitVec.getLsbD_append]
    simp [hi]
  rw [wordRb, h]

@[simp] theorem wordOp_packImm (op : BitVec 4) (imm8 : BitVec 8) : wordOp (packImm op imm8) = op := by
  apply BitVec.eq_of_getLsbD_eq
  intro i hi
  simp only [wordOp, packImm, BitVec.getLsbD_extractLsb', BitVec.getLsbD_append]
  have h1 : ¬ 12 + i < 8 := by omega
  have h2 : ¬ 12 + i - 8 < 4 := by omega
  simp [h1, h2, hi, show 12 + i - 8 - 4 = i by omega]

@[simp] theorem wordRd_packImm (op : BitVec 4) (imm8 : BitVec 8) : wordRd (packImm op imm8) = 0 := by
  have h : (packImm op imm8).extractLsb' 8 4 = 0#4 := by
    apply BitVec.eq_of_getLsbD_eq
    intro i hi
    simp only [packImm, BitVec.getLsbD_extractLsb', BitVec.getLsbD_append]
    simp [hi]
  rw [wordRd, h]
  rfl

@[simp] theorem wordImm8_packImm (op : BitVec 4) (imm8 : BitVec 8) : wordImm8 (packImm op imm8) = imm8 := by
  apply BitVec.eq_of_getLsbD_eq
  intro i hi
  simp only [wordImm8, packImm, BitVec.getLsbD_extractLsb', BitVec.getLsbD_append]
  simp [hi]

@[simp] theorem wordOp_packTgt (op : BitVec 4) (tgt6 : BitVec 6) : wordOp (packTgt op tgt6) = op := by
  apply BitVec.eq_of_getLsbD_eq
  intro i hi
  simp only [wordOp, packTgt, BitVec.getLsbD_extractLsb', BitVec.getLsbD_append]
  have h1 : ¬ 12 + i < 6 := by omega
  have h2 : ¬ 12 + i - 6 < 6 := by omega
  simp [h1, h2, hi, show 12 + i - 6 - 6 = i by omega]

/-- Bits 11:6 of format J6 are zero (R80). -/
@[simp] theorem zeros_packTgt (op : BitVec 4) (tgt6 : BitVec 6) : (packTgt op tgt6).extractLsb' 6 6 = 0#6 := by
  apply BitVec.eq_of_getLsbD_eq
  intro i hi
  simp only [packTgt, BitVec.getLsbD_extractLsb', BitVec.getLsbD_append]
  simp [hi]

@[simp] theorem wordTgt6_packTgt (op : BitVec 4) (tgt6 : BitVec 6) : wordTgt6 (packTgt op tgt6) = tgt6 := by
  apply BitVec.eq_of_getLsbD_eq
  intro i hi
  simp only [wordTgt6, packTgt, BitVec.getLsbD_extractLsb', BitVec.getLsbD_append]
  simp [hi]

end Sys2Proof.Laws
end

