-- ==== Sys2Proof/Laws/Prime.lean ====
section
/-! SUPPORT. p = 2^255 − 19 is prime (R120), by a chain of Lucas certificates: the fact behind the inverse of
R160 and the zero products of R125. -/

namespace Sys2Proof.Laws

/-- a^k mod n by squaring, for k below 2^fuel. -/
def powMod (n : Nat) : Nat → Nat → Nat → Nat
  | 0, _, _ => 1 % n
  | fuel + 1, a, k =>
    let r := powMod n fuel (a * a % n) (k / 2)
    if k % 2 = 1 then a * r % n else r

theorem powMod_eq (n : Nat) : ∀ fuel a k : Nat, k < 2 ^ fuel → powMod n fuel a k = a ^ k % n := by
  intro fuel
  induction fuel with
  | zero =>
    intro a k h
    obtain rfl : k = 0 := by simpa using h
    simp [powMod]
  | succ fuel ih =>
    intro a k h
    have hk : k / 2 < 2 ^ fuel := by rw [pow_succ] at h; omega
    have hsq : (a * a % n) ^ (k / 2) % n = a ^ (2 * (k / 2)) % n := by
      rw [← Nat.pow_mod, pow_mul, pow_two]
    simp only [powMod, ih _ _ hk, hsq]
    split
    next hodd =>
      rw [Nat.mul_mod_mod, ← pow_succ', show 2 * (k / 2) + 1 = k by omega]
    next heven => rw [show 2 * (k / 2) = k by omega]

/-- What Lucas' test asks of n, a base and the prime factors of n − 1, multiplicities included. -/
def lucasCheck (n a : Nat) (fs : List Nat) : Bool :=
  decide (1 < n ∧ fs.prod = n - 1 ∧ n < 2 ^ 255 ∧ powMod n 255 a (n - 1) = 1) &&
    fs.all fun q => powMod n 255 a ((n - 1) / q) != 1

theorem prime_of_lucasCheck {n : Nat} (a : Nat) (fs : List Nat) (hfs : ∀ q ∈ fs, Nat.Prime q)
    (h : lucasCheck n a fs = true) : Nat.Prime n := by
  simp only [lucasCheck, Bool.and_eq_true, decide_eq_true_eq, List.all_eq_true, bne_iff_ne] at h
  obtain ⟨⟨hn, hprod, hlt, hone⟩, hne⟩ := h
  have pow_eq_one : ∀ k < 2 ^ 255, ((a : ZMod n) ^ k = 1 ↔ powMod n 255 a k = 1) := by
    intro k hk
    rw [powMod_eq n 255 a k hk]
    have h : (a : ZMod n) ^ k = 1 ↔ ((a ^ k : Nat) : ZMod n) = ((1 : Nat) : ZMod n) := by
      push_cast
      exact Iff.rfl
    rw [h, ZMod.natCast_eq_natCast_iff, Nat.ModEq, Nat.mod_eq_of_lt hn]
  refine lucas_primality n (a : ZMod n) ((pow_eq_one _ (by omega)).2 hone) fun q hq hdvd => ?_
  rw [← hprod] at hdvd
  have hmem : q ∈ fs := by
    obtain ⟨r, hr, hqr⟩ := (Prime.dvd_prod_iff hq.prime).1 hdvd
    rwa [(Nat.prime_dvd_prime_iff_eq hq (hfs r hr)).1 hqr]
  have hsmall : (n - 1) / q < 2 ^ 255 := lt_of_le_of_lt (Nat.div_le_self _ _) (by omega)
  exact fun h => hne q hmem ((pow_eq_one _ hsmall).1 h)

theorem prime_2773320623 : Nat.Prime 2773320623 :=
  prime_of_lucasCheck 5 [2, 2437, 569003] (by simp only [List.forall_mem_cons]; norm_num) (by decide +kernel)

theorem prime_72106336199 : Nat.Prime 72106336199 :=
  prime_of_lucasCheck 7 [2, 13, 2773320623]
    (by simp only [List.forall_mem_cons]; exact ⟨by norm_num, by norm_num, prime_2773320623, by simp⟩)
    (by decide +kernel)

theorem prime_1919519569386763 : Nat.Prime 1919519569386763 :=
  prime_of_lucasCheck 2 [2, 3, 7, 19, 47, 47, 127, 8574133] (by simp only [List.forall_mem_cons]; norm_num)
    (by decide +kernel)

theorem prime_75445702479781427272750846543864801 : Nat.Prime 75445702479781427272750846543864801 :=
  prime_of_lucasCheck 7 [2, 2, 2, 2, 2, 3, 3, 5, 5, 75707, 72106336199, 1919519569386763]
    (by
      simp only [List.forall_mem_cons]
      exact ⟨by norm_num, by norm_num, by norm_num, by norm_num, by norm_num, by norm_num, by norm_num,
        by norm_num, by norm_num, by norm_num, prime_72106336199, prime_1919519569386763, by simp⟩)
    (by decide +kernel)

theorem prime_31757755568855353 : Nat.Prime 31757755568855353 :=
  prime_of_lucasCheck 10 [2, 2, 2, 3, 31, 107, 223, 4153, 430751] (by simp only [List.forall_mem_cons]; norm_num)
    (by decide +kernel)

/-- The large prime factor of p − 1. -/
theorem prime_factor_of_pred :
    Nat.Prime 74058212732561358302231226437062788676166966415465897661863160754340907 :=
  prime_of_lucasCheck 2
    [2, 3, 353, 57467, 132049, 1923133, 31757755568855353, 75445702479781427272750846543864801]
    (by
      simp only [List.forall_mem_cons]
      exact ⟨by norm_num, by norm_num, by norm_num, by norm_num, by norm_num, by norm_num,
        prime_31757755568855353, prime_75445702479781427272750846543864801, by simp⟩)
    (by decide +kernel)

/-- p is 2^255 − 19 (R6, R120). -/
theorem fieldPrime_eq : fieldPrime = 2 ^ 255 - 19 := by norm_num

/-- p is prime (R120). -/
theorem fieldPrime_prime : Nat.Prime fieldPrime :=
  prime_of_lucasCheck 2
    [2, 2, 3, 65147, 74058212732561358302231226437062788676166966415465897661863160754340907]
    (by
      simp only [List.forall_mem_cons]
      exact ⟨by norm_num, by norm_num, by norm_num, by norm_num, prime_factor_of_pred, by simp⟩)
    (by decide +kernel)

end Sys2Proof.Laws
end

