-- ==== Sys2Proof/Laws/Field.lean ====
section
/-! SUPPORT. The value of each operation of the field-arithmetic unit, and the blend of the swap. -/

namespace Sys2Proof.Laws

open Sys2Proof.Machine

@[simp] theorem toFe_val (n : Nat) : (toFe n).val = n % fieldPrime := rfl

@[simp] theorem feAdd_val (a b : Fe) : (feAdd a b).val = (a.val + b.val) % fieldPrime := rfl

@[simp] theorem feSub_val (a b : Fe) : (feSub a b).val = (a.val + fieldPrime - b.val) % fieldPrime := rfl

@[simp] theorem feMul_val (a b : Fe) : (feMul a b).val = (a.val * b.val) % fieldPrime := rfl

@[simp] theorem feSqr_val (a : Fe) : (feSqr a).val = (a.val * a.val) % fieldPrime := rfl

/-- A canonical value is not changed by the reduction (R120). -/
theorem toFe_of_lt {n : Nat} (h : n < fieldPrime) : (toFe n).val = n := Nat.mod_eq_of_lt h

@[simp] theorem toFe_val_self (a : Fe) : toFe a.val = a := Fin.ext (Nat.mod_eq_of_lt a.isLt)

theorem fe_lt_two_pow (a : Fe) : a.val < 2 ^ 255 := Nat.lt_trans a.isLt (by norm_num)

/-- A register's 255 bits lose nothing (R21). -/
@[simp] theorem feBits_toNat (a : Fe) : (feBits a).toNat = a.val := by
  rw [feBits, BitVec.toNat_ofNat, Nat.mod_eq_of_lt (fe_lt_two_pow a)]

/-- With the mask of zeros the blend keeps its first operand (R151). -/
@[simp] theorem blend_mask_false (x y : Fe) : blend (swapMask false) x y = x := by
  have h : (feBits x &&& ~~~swapMask false) ||| (feBits y &&& swapMask false) = feBits x := by
    change (feBits x &&& ~~~0#255) ||| (feBits y &&& 0#255) = feBits x
    rw [BitVec.and_zero, BitVec.or_zero, BitVec.not_zero, BitVec.and_allOnes]
  rw [blend, h, feBits_toNat, toFe_val_self]

/-- With the mask of ones the blend takes its second operand (R151). -/
@[simp] theorem blend_mask_true (x y : Fe) : blend (swapMask true) x y = y := by
  have h : (feBits x &&& ~~~swapMask true) ||| (feBits y &&& swapMask true) = feBits y := by
    change (feBits x &&& ~~~BitVec.allOnes 255) ||| (feBits y &&& BitVec.allOnes 255) = feBits y
    rw [BitVec.not_allOnes, BitVec.and_zero, BitVec.zero_or, BitVec.and_allOnes]
  rw [blend, h, feBits_toNat, toFe_val_self]

@[simp] theorem le32_getElem (v i : Nat) (h : i < 32) : (le32 v)[i] = BitVec.ofNat 8 (v >>> (8 * i)) := by
  simp [le32]

@[simp] theorem leList_nil : leList [] = 0 := rfl

@[simp] theorem leList_cons (b : Byte) (bs : List Byte) : leList (b :: bs) = b.toNat + 256 * leList bs := rfl

theorem leList_lt (bs : List Byte) : leList bs < 256 ^ bs.length := by
  induction bs with
  | nil => simp
  | cons b bs ih =>
    have hb := b.isLt
    simp only [leList_cons, List.length_cons, pow_succ]
    omega

/-- The clamp touches bytes 0 and 31 only (R111). -/
theorem clampBytes_getElem (b : Vector Byte 32) (i : Nat) (h : i < 32) :
    (clampBytes b)[i] =
      if i = 31 then (b[31] &&& 0x7F) ||| 0x40 else if i = 0 then b[0] &&& 0xF8 else b[i] := by
  simp only [clampBytes, Vector.getElem_set, eq_comm (a := i)]

end Sys2Proof.Laws
end

