-- ==== Sys2Proof/Laws/State.lean ====
section
/-! SUPPORT. One lemma per field per shared update of State: what the update makes of that field. -/

namespace Sys2Proof.Laws

open Sys2Proof.Machine

variable (s : State)

/-! `writeField` -/

@[simp] theorem writeField_upc (r : Reg) (v : Fe) : (s.writeField r v).upc = s.upc := rfl
@[simp] theorem writeField_bitidx (r : Reg) (v : Fe) : (s.writeField r v).bitidx = s.bitidx := rfl
@[simp] theorem writeField_rep (r : Reg) (v : Fe) : (s.writeField r v).rep = s.rep := rfl
@[simp] theorem writeField_busy (r : Reg) (v : Fe) : (s.writeField r v).busy = s.busy := rfl
@[simp] theorem writeField_done (r : Reg) (v : Fe) : (s.writeField r v).done = s.done := rfl
@[simp] theorem writeField_err (r : Reg) (v : Fe) : (s.writeField r v).err = s.err := rfl
@[simp] theorem writeField_ovr (r : Reg) (v : Fe) : (s.writeField r v).ovr = s.ovr := rfl
@[simp] theorem writeField_errcode (r : Reg) (v : Fe) : (s.writeField r v).errcode = s.errcode := rfl
@[simp] theorem writeField_ilen (r : Reg) (v : Fe) : (s.writeField r v).ilen = s.ilen := rfl
@[simp] theorem writeField_ibuf (r : Reg) (v : Fe) : (s.writeField r v).ibuf = s.ibuf := rfl
@[simp] theorem writeField_obuf (r : Reg) (v : Fe) : (s.writeField r v).obuf = s.obuf := rfl
@[simp] theorem writeField_rom (r : Reg) (v : Fe) : (s.writeField r v).rom = s.rom := rfl
@[simp] theorem writeField_freeCount (r : Reg) (v : Fe) : (s.writeField r v).freeCount = s.freeCount := rfl
@[simp] theorem writeField_turns (r : Reg) (v : Fe) : (s.writeField r v).turns = s.turns := rfl
@[simp] theorem writeField_replies (r : Reg) (v : Fe) : (s.writeField r v).replies = s.replies := rfl

/-! `advance` -/

@[simp] theorem advance_fregs : s.advance.fregs = s.fregs := rfl
@[simp] theorem advance_upc : s.advance.upc = s.upc + 1 := rfl
@[simp] theorem advance_bitidx : s.advance.bitidx = s.bitidx := rfl
@[simp] theorem advance_rep : s.advance.rep = s.rep := rfl
@[simp] theorem advance_busy : s.advance.busy = s.busy := rfl
@[simp] theorem advance_done : s.advance.done = s.done := rfl
@[simp] theorem advance_err : s.advance.err = s.err := rfl
@[simp] theorem advance_ovr : s.advance.ovr = s.ovr := rfl
@[simp] theorem advance_errcode : s.advance.errcode = s.errcode := rfl
@[simp] theorem advance_ilen : s.advance.ilen = s.ilen := rfl
@[simp] theorem advance_ibuf : s.advance.ibuf = s.ibuf := rfl
@[simp] theorem advance_obuf : s.advance.obuf = s.obuf := rfl
@[simp] theorem advance_rom : s.advance.rom = s.rom := rfl
@[simp] theorem advance_freeCount : s.advance.freeCount = s.freeCount := rfl
@[simp] theorem advance_turns : s.advance.turns = s.turns := rfl
@[simp] theorem advance_replies : s.advance.replies = s.replies := rfl

/-! `jump` -/

@[simp] theorem jump_fregs (t : BitVec 6) : (s.jump t).fregs = s.fregs := rfl
@[simp] theorem jump_upc (t : BitVec 6) : (s.jump t).upc = t := rfl
@[simp] theorem jump_bitidx (t : BitVec 6) : (s.jump t).bitidx = s.bitidx := rfl
@[simp] theorem jump_rep (t : BitVec 6) : (s.jump t).rep = s.rep := rfl
@[simp] theorem jump_busy (t : BitVec 6) : (s.jump t).busy = s.busy := rfl
@[simp] theorem jump_done (t : BitVec 6) : (s.jump t).done = s.done := rfl
@[simp] theorem jump_err (t : BitVec 6) : (s.jump t).err = s.err := rfl
@[simp] theorem jump_ovr (t : BitVec 6) : (s.jump t).ovr = s.ovr := rfl
@[simp] theorem jump_errcode (t : BitVec 6) : (s.jump t).errcode = s.errcode := rfl
@[simp] theorem jump_ilen (t : BitVec 6) : (s.jump t).ilen = s.ilen := rfl
@[simp] theorem jump_ibuf (t : BitVec 6) : (s.jump t).ibuf = s.ibuf := rfl
@[simp] theorem jump_obuf (t : BitVec 6) : (s.jump t).obuf = s.obuf := rfl
@[simp] theorem jump_rom (t : BitVec 6) : (s.jump t).rom = s.rom := rfl
@[simp] theorem jump_freeCount (t : BitVec 6) : (s.jump t).freeCount = s.freeCount := rfl
@[simp] theorem jump_turns (t : BitVec 6) : (s.jump t).turns = s.turns := rfl
@[simp] theorem jump_replies (t : BitVec 6) : (s.jump t).replies = s.replies := rfl

/-! `raiseError` -/

@[simp] theorem raiseError_fregs (e : ErrKind) : (s.raiseError e).fregs = s.fregs := rfl
@[simp] theorem raiseError_upc (e : ErrKind) : (s.raiseError e).upc = s.upc := rfl
@[simp] theorem raiseError_bitidx (e : ErrKind) : (s.raiseError e).bitidx = s.bitidx := rfl
@[simp] theorem raiseError_rep (e : ErrKind) : (s.raiseError e).rep = s.rep := rfl
@[simp] theorem raiseError_busy (e : ErrKind) : (s.raiseError e).busy = false := rfl
@[simp] theorem raiseError_done (e : ErrKind) : (s.raiseError e).done = false := rfl
@[simp] theorem raiseError_err (e : ErrKind) : (s.raiseError e).err = true := rfl
@[simp] theorem raiseError_ovr (e : ErrKind) : (s.raiseError e).ovr = s.ovr := rfl
@[simp] theorem raiseError_errcode (e : ErrKind) : (s.raiseError e).errcode = e.code := rfl
@[simp] theorem raiseError_ilen (e : ErrKind) : (s.raiseError e).ilen = s.ilen := rfl
@[simp] theorem raiseError_ibuf (e : ErrKind) : (s.raiseError e).ibuf = s.ibuf := rfl
@[simp] theorem raiseError_obuf (e : ErrKind) : (s.raiseError e).obuf = s.obuf := rfl
@[simp] theorem raiseError_rom (e : ErrKind) : (s.raiseError e).rom = s.rom := rfl
@[simp] theorem raiseError_freeCount (e : ErrKind) : (s.raiseError e).freeCount = s.freeCount := rfl
@[simp] theorem raiseError_turns (e : ErrKind) : (s.raiseError e).turns = s.turns := rfl
@[simp] theorem raiseError_replies (e : ErrKind) : (s.raiseError e).replies = s.replies := rfl

/-! `acceptCommand` -/

@[simp] theorem acceptCommand_fregs : s.acceptCommand.fregs = s.fregs := rfl
@[simp] theorem acceptCommand_upc : s.acceptCommand.upc = s.upc := rfl
@[simp] theorem acceptCommand_bitidx : s.acceptCommand.bitidx = s.bitidx := rfl
@[simp] theorem acceptCommand_rep : s.acceptCommand.rep = s.rep := rfl
@[simp] theorem acceptCommand_busy : s.acceptCommand.busy = s.busy := rfl
@[simp] theorem acceptCommand_done : s.acceptCommand.done = false := rfl
@[simp] theorem acceptCommand_err : s.acceptCommand.err = false := rfl
@[simp] theorem acceptCommand_ovr : s.acceptCommand.ovr = s.ovr := rfl
@[simp] theorem acceptCommand_errcode : s.acceptCommand.errcode = 0 := rfl
@[simp] theorem acceptCommand_ilen : s.acceptCommand.ilen = s.ilen := rfl
@[simp] theorem acceptCommand_ibuf : s.acceptCommand.ibuf = s.ibuf := rfl
@[simp] theorem acceptCommand_obuf : s.acceptCommand.obuf = s.obuf := rfl
@[simp] theorem acceptCommand_rom : s.acceptCommand.rom = s.rom := rfl
@[simp] theorem acceptCommand_freeCount : s.acceptCommand.freeCount = s.freeCount := rfl
@[simp] theorem acceptCommand_turns : s.acceptCommand.turns = s.turns := rfl
@[simp] theorem acceptCommand_replies : s.acceptCommand.replies = s.replies := rfl

/-! `dropWrite` -/

@[simp] theorem dropWrite_fregs : s.dropWrite.fregs = s.fregs := rfl
@[simp] theorem dropWrite_upc : s.dropWrite.upc = s.upc := rfl
@[simp] theorem dropWrite_bitidx : s.dropWrite.bitidx = s.bitidx := rfl
@[simp] theorem dropWrite_rep : s.dropWrite.rep = s.rep := rfl
@[simp] theorem dropWrite_busy : s.dropWrite.busy = s.busy := rfl
@[simp] theorem dropWrite_done : s.dropWrite.done = s.done := rfl
@[simp] theorem dropWrite_err : s.dropWrite.err = s.err := rfl
@[simp] theorem dropWrite_ovr : s.dropWrite.ovr = true := rfl
@[simp] theorem dropWrite_errcode : s.dropWrite.errcode = s.errcode := rfl
@[simp] theorem dropWrite_ilen : s.dropWrite.ilen = s.ilen := rfl
@[simp] theorem dropWrite_ibuf : s.dropWrite.ibuf = s.ibuf := rfl
@[simp] theorem dropWrite_obuf : s.dropWrite.obuf = s.obuf := rfl
@[simp] theorem dropWrite_rom : s.dropWrite.rom = s.rom := rfl
@[simp] theorem dropWrite_freeCount : s.dropWrite.freeCount = s.freeCount := rfl
@[simp] theorem dropWrite_turns : s.dropWrite.turns = s.turns := rfl
@[simp] theorem dropWrite_replies : s.dropWrite.replies = s.replies := rfl

/-! `haltFlags` -/

@[simp] theorem haltFlags_fregs : s.haltFlags.fregs = s.fregs := rfl
@[simp] theorem haltFlags_upc : s.haltFlags.upc = s.upc := rfl
@[simp] theorem haltFlags_bitidx : s.haltFlags.bitidx = s.bitidx := rfl
@[simp] theorem haltFlags_rep : s.haltFlags.rep = s.rep := rfl
@[simp] theorem haltFlags_busy : s.haltFlags.busy = false := rfl
@[simp] theorem haltFlags_done : s.haltFlags.done = true := rfl
@[simp] theorem haltFlags_err : s.haltFlags.err = s.err := rfl
@[simp] theorem haltFlags_ovr : s.haltFlags.ovr = s.ovr := rfl
@[simp] theorem haltFlags_errcode : s.haltFlags.errcode = s.errcode := rfl
@[simp] theorem haltFlags_ilen : s.haltFlags.ilen = s.ilen := rfl
@[simp] theorem haltFlags_ibuf : s.haltFlags.ibuf = s.ibuf := rfl
@[simp] theorem haltFlags_obuf : s.haltFlags.obuf = s.obuf := rfl
@[simp] theorem haltFlags_rom : s.haltFlags.rom = s.rom := rfl
@[simp] theorem haltFlags_freeCount : s.haltFlags.freeCount = s.freeCount := rfl
@[simp] theorem haltFlags_turns : s.haltFlags.turns = s.turns := rfl
@[simp] theorem haltFlags_replies : s.haltFlags.replies = s.replies := rfl

/-! `unspecifyFields` -/

@[simp] theorem unspecifyFields_upc : s.unspecifyFields.upc = s.upc := rfl
@[simp] theorem unspecifyFields_bitidx : s.unspecifyFields.bitidx = s.bitidx := rfl
@[simp] theorem unspecifyFields_rep : s.unspecifyFields.rep = s.rep := rfl
@[simp] theorem unspecifyFields_busy : s.unspecifyFields.busy = s.busy := rfl
@[simp] theorem unspecifyFields_done : s.unspecifyFields.done = s.done := rfl
@[simp] theorem unspecifyFields_err : s.unspecifyFields.err = s.err := rfl
@[simp] theorem unspecifyFields_ovr : s.unspecifyFields.ovr = s.ovr := rfl
@[simp] theorem unspecifyFields_errcode : s.unspecifyFields.errcode = s.errcode := rfl
@[simp] theorem unspecifyFields_ilen : s.unspecifyFields.ilen = s.ilen := rfl
@[simp] theorem unspecifyFields_ibuf : s.unspecifyFields.ibuf = s.ibuf := rfl
@[simp] theorem unspecifyFields_obuf : s.unspecifyFields.obuf = s.obuf := rfl
@[simp] theorem unspecifyFields_rom : s.unspecifyFields.rom = s.rom := rfl
@[simp] theorem unspecifyFields_freeCount : s.unspecifyFields.freeCount = s.freeCount + 1 := rfl
@[simp] theorem unspecifyFields_turns : s.unspecifyFields.turns = s.turns := rfl
@[simp] theorem unspecifyFields_replies : s.unspecifyFields.replies = s.replies := rfl

/-! `clearAll` -/

@[simp] theorem clearAll_fregs : s.clearAll.fregs = s.unspecifyFields.fregs := rfl
@[simp] theorem clearAll_upc : s.clearAll.upc = s.upc := rfl
@[simp] theorem clearAll_bitidx : s.clearAll.bitidx = s.bitidx := rfl
@[simp] theorem clearAll_rep : s.clearAll.rep = s.rep := rfl
@[simp] theorem clearAll_busy : s.clearAll.busy = s.busy := rfl
@[simp] theorem clearAll_done : s.clearAll.done = s.done := rfl
@[simp] theorem clearAll_err : s.clearAll.err = s.err := rfl
@[simp] theorem clearAll_ovr : s.clearAll.ovr = false := rfl
@[simp] theorem clearAll_errcode : s.clearAll.errcode = s.errcode := rfl
@[simp] theorem clearAll_ilen : s.clearAll.ilen = 0 := rfl
@[simp] theorem clearAll_ibuf : s.clearAll.ibuf = Vector.replicate 32 0x00 := rfl
@[simp] theorem clearAll_obuf : s.clearAll.obuf = Vector.replicate 32 0x00 := rfl
@[simp] theorem clearAll_rom : s.clearAll.rom = s.rom := rfl
@[simp] theorem clearAll_freeCount : s.clearAll.freeCount = s.freeCount + 1 := rfl
@[simp] theorem clearAll_turns : s.clearAll.turns = s.turns := rfl
@[simp] theorem clearAll_replies : s.clearAll.replies = s.replies := rfl

/-! `resetEvent` -/

@[simp] theorem resetEvent_fregs : s.resetEvent.fregs = s.unspecifyFields.fregs := rfl
@[simp] theorem resetEvent_upc : s.resetEvent.upc = 0 := rfl
@[simp] theorem resetEvent_bitidx : s.resetEvent.bitidx = 0 := rfl
@[simp] theorem resetEvent_rep : s.resetEvent.rep = 0 := rfl
@[simp] theorem resetEvent_busy : s.resetEvent.busy = false := rfl
@[simp] theorem resetEvent_done : s.resetEvent.done = false := rfl
@[simp] theorem resetEvent_err : s.resetEvent.err = false := rfl
@[simp] theorem resetEvent_ovr : s.resetEvent.ovr = false := rfl
@[simp] theorem resetEvent_errcode : s.resetEvent.errcode = 0 := rfl
@[simp] theorem resetEvent_ilen : s.resetEvent.ilen = 0 := rfl
@[simp] theorem resetEvent_ibuf : s.resetEvent.ibuf = Vector.replicate 32 0x00 := rfl
@[simp] theorem resetEvent_obuf : s.resetEvent.obuf = Vector.replicate 32 0x00 := rfl
@[simp] theorem resetEvent_rom : s.resetEvent.rom = s.rom := rfl
@[simp] theorem resetEvent_freeCount : s.resetEvent.freeCount = s.freeCount + 1 := rfl
@[simp] theorem resetEvent_turns : s.resetEvent.turns = s.turns := rfl
@[simp] theorem resetEvent_replies : s.resetEvent.replies = s.replies := rfl

/-! `reply` -/

@[simp] theorem reply_fregs (off : Nat) : (s.reply off).fregs = s.fregs := rfl
@[simp] theorem reply_upc (off : Nat) : (s.reply off).upc = s.upc := rfl
@[simp] theorem reply_bitidx (off : Nat) : (s.reply off).bitidx = s.bitidx := rfl
@[simp] theorem reply_rep (off : Nat) : (s.reply off).rep = s.rep := rfl
@[simp] theorem reply_busy (off : Nat) : (s.reply off).busy = s.busy := rfl
@[simp] theorem reply_done (off : Nat) : (s.reply off).done = s.done := rfl
@[simp] theorem reply_err (off : Nat) : (s.reply off).err = s.err := rfl
@[simp] theorem reply_ovr (off : Nat) : (s.reply off).ovr = s.ovr := rfl
@[simp] theorem reply_errcode (off : Nat) : (s.reply off).errcode = s.errcode := rfl
@[simp] theorem reply_ilen (off : Nat) : (s.reply off).ilen = s.ilen := rfl
@[simp] theorem reply_ibuf (off : Nat) : (s.reply off).ibuf = s.ibuf := rfl
@[simp] theorem reply_obuf (off : Nat) : (s.reply off).obuf = s.obuf := rfl
@[simp] theorem reply_rom (off : Nat) : (s.reply off).rom = s.rom := rfl
@[simp] theorem reply_freeCount (off : Nat) : (s.reply off).freeCount = s.freeCount := rfl
@[simp] theorem reply_turns (off : Nat) : (s.reply off).turns = s.turns := rfl
@[simp] theorem reply_replies (off : Nat) : (s.reply off).replies = (off, s.windowRead off) :: s.replies := rfl

end Sys2Proof.Laws
end

