-- ==== Sys2Proof/Laws/Registers.lean ====
section
/-! SUPPORT. The field register file through its one reader and its one writer (R9, R22, R23). -/

namespace Sys2Proof.Laws

open Sys2Proof.Machine

variable (s : State) (r q : Reg) (v : Fe)

/-- Reading depends on the stored registers alone. -/
theorem readField_congr {s t : State} (h : s.fregs = t.fregs) (r : Reg) : s.readField r = t.readField r := by
  simp only [State.readField, h]

@[simp] theorem writable_eq_true : Reg.writable r = true ↔ 4 ≤ r.val := decide_eq_true_iff

theorem writeField_fregs_of_writable (h : 4 ≤ r.val) :
    (s.writeField r v).fregs = s.fregs.set (r.val - 4) v (by have := r.isLt; omega) := by
  simp [State.writeField, h]

/-- A constant register discards a write (R23). -/
theorem writeField_of_constant (h : r.val < 4) : s.writeField r v = s := by
  have hn : ¬ 4 ≤ r.val := Nat.not_le.2 h
  simp [State.writeField, hn]

theorem readField_of_constant (h : r.val < 4) : s.readField r = constantField r := by
  have hn : ¬ 4 ≤ r.val := Nat.not_le.2 h
  simp [State.readField, hn]

/-- Read after write, the same register. -/
theorem readField_writeField_self (h : 4 ≤ r.val) : (s.writeField r v).readField r = v := by
  simp [State.readField, State.writeField, h]

/-- Read after write, another register. -/
theorem readField_writeField_of_ne (h : q ≠ r) : (s.writeField r v).readField q = s.readField q := by
  have hv : q.val ≠ r.val := fun e => h (Fin.ext e)
  by_cases hq : 4 ≤ q.val
  · by_cases hr : 4 ≤ r.val
    · have hi : r.val - 4 ≠ q.val - 4 := by omega
      simp only [State.readField, State.writeField, hq, hr, dite_true]
      exact Vector.getElem_set_ne _ _ hi
    · simp [State.readField, State.writeField, hq, hr]
  · simp [State.readField, hq]

@[simp] theorem readField_advance : s.advance.readField r = s.readField r := rfl

@[simp] theorem readField_jump (t : BitVec 6) : (s.jump t).readField r = s.readField r := rfl

@[simp] theorem readField_raiseError (e : ErrKind) : (s.raiseError e).readField r = s.readField r := rfl

@[simp] theorem readField_acceptCommand : s.acceptCommand.readField r = s.readField r := rfl

@[simp] theorem readField_dropWrite : s.dropWrite.readField r = s.readField r := rfl

@[simp] theorem readField_haltFlags : s.haltFlags.readField r = s.readField r := rfl

end Sys2Proof.Laws
end

