-- ==== Sys2Proof/Laws/Ops.lean ====
section
/-! SUPPORT. Once for each shared operation: everything it can do. -/

namespace Sys2Proof.Laws

open Sys2Proof.Machine

variable {s t : State}

/-- The end of a field micro-operation: a writable destination, or MicroFault (R23, R90). -/
theorem fieldResult_cases {rd : Reg} {v : Fe} (h : s.fieldResult rd v = .next t) :
    (4 ≤ rd.val ∧ t = (s.writeField rd v).advance) ∨ (rd.val < 4 ∧ t = s.raiseError .microFault) := by
  unfold State.fieldResult at h
  split at h
  next hw => exact .inl ⟨(writable_eq_true rd).1 hw, (Host.Outcome.next.inj h).symm⟩
  next hw =>
    exact .inr ⟨Nat.lt_of_not_le fun hle => hw ((writable_eq_true rd).2 hle), (Host.Outcome.next.inj h).symm⟩

/-- A `CMD` write: dropped while busy, else accepted and examined (R182). -/
theorem hostCommand_cases {body : State → State} (h : s.hostCommand body = .next t) :
    (s.busy = true ∧ t = s.dropWrite) ∨ (s.busy = false ∧ t = body s.acceptCommand) := by
  cases hb : s.busy <;> simp [State.hostCommand, hb] at h <;> simp [h]

/-- Starting a program: the length check, then the entry (R184, R185, R222). -/
theorem startProgram_cases (s : State) (entry : BitVec 6) :
    (s.ilen = 32 ∧ s.startProgram entry = { s with busy := true, upc := entry }) ∨
    (s.ilen ≠ 32 ∧ s.startProgram entry = s.raiseError .invalidScalarLength) := by
  by_cases h : s.ilen = 32
  · exact .inl ⟨h, if_pos h⟩
  · exact .inr ⟨h, if_neg h⟩

/-- A push: dropped while busy; else counted, and stored while fewer than 32 bytes are there (R186). -/
theorem pushByte_cases (s : State) (v : Byte) :
    (s.busy = true ∧ s.pushByte v = s.dropWrite) ∨
    (s.busy = false ∧ ∃ ibuf, s.pushByte v =
      { s with ibuf := ibuf, ilen := BitVec.ofNat 6 (min (s.ilen.toNat + 1) 63) } ∧
      ((32 ≤ s.ilen.toNat ∧ ibuf = s.ibuf) ∨
        ∃ h : s.ilen.toNat < 32, ibuf = s.ibuf.set s.ilen.toNat v h)) := by
  cases hb : s.busy
  · refine .inr ⟨rfl, if h : s.ilen.toNat < 32 then s.ibuf.set s.ilen.toNat v h else s.ibuf,
      by simp [State.pushByte, hb], ?_⟩
    by_cases hl : s.ilen.toNat < 32
    · exact .inr ⟨hl, by simp [hl]⟩
    · exact .inl ⟨Nat.not_lt.1 hl, by simp [hl]⟩
  · exact .inl ⟨rfl, by simp [State.pushByte, hb]⟩

/-- A micro-step: the decoded micro-operation runs, or MicroFault is raised (R180). -/
theorem microStep_cases (h : microStep s = .next t) :
    (∃ i, decodeMicro s.fetch = .ok i ∧ exec i s = .next t) ∨
    (∃ e, decodeMicro s.fetch = .error e ∧ t = s.raiseError .microFault) := by
  unfold microStep at h
  split at h
  next i hi => exact .inl ⟨i, hi, h⟩
  next e he => exact .inr ⟨e, he, (Host.Outcome.next.inj h).symm⟩

/-- A `CMD` write examines its byte (R84, R92). -/
theorem commandWrite_cases (v : Byte) (s : State) :
    (∃ i, decodeCommand v = .ok i ∧ commandWrite v s = exec i s) ∨
    (∃ e, decodeCommand v = .error e ∧ commandWrite v s = illegalCommand s) := by
  unfold commandWrite
  split
  next i hi => exact .inl ⟨i, hi, rfl⟩
  next e he => exact .inr ⟨e, he, rfl⟩

/-- One step is the next turn (R10, R69). -/
theorem step_cases (s : State) :
    (s.turns = [] ∧ step s = sequencerTurn s) ∨
    (∃ rest, s.turns = .sequencer :: rest ∧ step s = sequencerTurn { s with turns := rest }) ∨
    (∃ a rest, s.turns = .host a :: rest ∧ step s = hostAccess a { s with turns := rest }) ∨
    (∃ rest, s.turns = .reset :: rest ∧ step s = .next { s with turns := rest }.resetEvent) := by
  unfold step
  cases ht : s.turns with
  | nil => exact .inl ⟨rfl, rfl⟩
  | cons t rest =>
    cases t with
    | sequencer => exact .inr (.inl ⟨rest, rfl, rfl⟩)
    | host a => exact .inr (.inr (.inl ⟨a, rest, rfl, rfl⟩))
    | reset => exact .inr (.inr (.inr ⟨rest, rfl, rfl⟩))

end Sys2Proof.Laws
end

