-- ==== Sys2Proof/Laws/PerInstr.lean ====
section
/-! SUPPORT. The family TableRow: a well-formed instruction's code has its row's fixed bits, and no bit above its
row's width (R83, R84). -/

namespace Sys2Proof.Laws.TableRow

/-- The code of a well-formed instruction matches its row of the opcode table. -/
def Statement (i : Instr) : Prop :=
  i.WellFormed → (encode i).toNat &&& (tableRow i).2 = (tableRow i).1 ∧ (encode i).toNat < 2 ^ (encode i).width

/-- The opcode's place in a packed word (R80). -/
theorem packRegs_opcode (op : BitVec 4) (rd ra rb : Reg) :
    (packRegs op rd ra rb).toNat &&& 0xF000 = (op ++ 0#12).toNat := by
  have h : packRegs op rd ra rb &&& 0xF000#16 = op ++ 0#12 := by
    apply BitVec.eq_of_getLsbD_eq
    intro i hi
    rw [BitVec.getLsbD_and, packRegs]
    simp only [BitVec.getLsbD_append]
    interval_cases i <;> simp
  rw [← h, BitVec.toNat_and]
  rfl

theorem fadd (rd ra rb : Reg) : Statement (.fadd rd ra rb) := fun _ => ⟨packRegs_opcode 1 rd ra rb, BitVec.isLt _⟩

theorem fsub (rd ra rb : Reg) : Statement (.fsub rd ra rb) := fun _ => ⟨packRegs_opcode 2 rd ra rb, BitVec.isLt _⟩

theorem fmul (rd ra rb : Reg) : Statement (.fmul rd ra rb) := fun _ => ⟨packRegs_opcode 3 rd ra rb, BitVec.isLt _⟩

theorem fsqr (rd ra : Reg) : Statement (.fsqr rd ra) := by
  refine fun _ => ⟨?_, BitVec.isLt _⟩
  revert rd ra
  decide +kernel

theorem cswap (ra rb : Reg) : Statement (.cswap ra rb) := by
  refine fun _ => ⟨?_, BitVec.isLt _⟩
  revert ra rb
  decide +kernel

theorem seti (imm8 : BitVec 8) : Statement (.seti imm8) := by
  refine fun _ => ⟨?_, BitVec.isLt _⟩
  revert imm8
  decide +kernel

theorem setr (imm8 : BitVec 8) : Statement (.setr imm8) := by
  refine fun _ => ⟨?_, BitVec.isLt _⟩
  revert imm8
  decide +kernel

theorem loopi (tgt6 : BitVec 6) : Statement (.loopi tgt6) := by
  refine fun _ => ⟨?_, BitVec.isLt _⟩
  revert tgt6
  decide +kernel

theorem loopr (tgt6 : BitVec 6) : Statement (.loopr tgt6) := by
  refine fun _ => ⟨?_, BitVec.isLt _⟩
  revert tgt6
  decide +kernel

theorem enc (ra : Reg) : Statement (.enc ra) := by
  refine fun _ => ⟨?_, BitVec.isLt _⟩
  revert ra
  decide +kernel

theorem clmp : Statement .clmp := fun _ => ⟨by decide, by decide⟩

theorem halt : Statement .halt := fun _ => ⟨by decide, by decide⟩

theorem clr : Statement .clr := fun _ => ⟨by decide, by decide⟩

theorem mulbase : Statement .mulbase := fun _ => ⟨by decide, by decide⟩

theorem clamp : Statement .clamp := fun _ => ⟨by decide, by decide⟩

end Sys2Proof.Laws.TableRow
end

