-- ==== Sys2Proof/Laws/Window.lean ====
section
/-! SUPPORT. What a byte of the host window depends on (R62). -/

namespace Sys2Proof.Laws

open Sys2Proof.Machine

/-- A byte of the window depends on `STATUS`, `ILEN` and the two buffers alone. -/
theorem windowRead_congr {s t : State} (hst : s.statusByte = t.statusByte) (hl : s.ilen = t.ilen)
    (hi : s.ibuf = t.ibuf) (ho : s.obuf = t.obuf) (off : Nat) : s.windowRead off = t.windowRead off := by
  simp only [State.windowRead, hst, hl, hi, ho]

/-- Every offset but `STATUS` reads as before an update of the flags. -/
theorem windowRead_congr_of_ne_status {s t : State} (hl : s.ilen = t.ilen) (hi : s.ibuf = t.ibuf)
    (ho : s.obuf = t.obuf) {off : Nat} (h : off ≠ 1) : s.windowRead off = t.windowRead off := by
  simp only [State.windowRead, hl, hi, ho, h, if_false]

@[simp] theorem windowRead_advance (s : State) (off : Nat) : s.advance.windowRead off = s.windowRead off := rfl

@[simp] theorem windowRead_jump (s : State) (t : BitVec 6) (off : Nat) :
    (s.jump t).windowRead off = s.windowRead off := rfl

@[simp] theorem windowRead_writeField (s : State) (r : Reg) (v : Fe) (off : Nat) :
    (s.writeField r v).windowRead off = s.windowRead off := rfl

@[simp] theorem windowRead_reply (s : State) (q off : Nat) : (s.reply q).windowRead off = s.windowRead off := rfl

end Sys2Proof.Laws
end

