-- ==== Sys2Proof/Tests/Slice0.lean ====
section
/-! SUPPORT. Tests: expected results are the spec's own examples and vectors (95_test_vectors.md), named in each
comment; then one witness for each statement that has hypotheses. -/

namespace Sys2Proof.Tests

open Sys2Proof.Machine

/-! Small states. -/

/-- The next state of an outcome, or the given one. -/
def after (s : State) : Result → State
  | .next t => t
  | .fault _ => s
  | .refused _ => s

/-- One instruction on one state. -/
def run1 (i : Instr) (s : State) : State := after s (exec i s)

/-- One step on one state. -/
def step1 (s : State) : State := after s (step s)

/-- Two field registers set, by number. -/
def fields (r : Reg) (x : Nat) (q : Reg) (y : Nat) : State :=
  (State.reset.writeField r (toFe x)).writeField q (toFe y)

/-- 32 bytes pushed, the block idle. -/
def loaded : State := { State.reset with ilen := 32 }

/-- A command runs at `upc`. -/
def running (upc : BitVec 6) : State := { State.reset with busy := true, ilen := 32, upc := upc }

/-- The next turn is a one-byte host write. -/
def writing (off : Nat) (v : Byte) (s : State) : State := { s with turns := [writeTurn off v] }

/-- The next turn is reset. -/
def resetting (s : State) : State := { s with turns := [.reset] }

/-! WellFormed: one ill-formed term for each check. -/

theorem test_wf_refuses_fadd : (Instr.fadd 3 4 5).wellFormed = false := by decide
theorem test_wf_refuses_fsub : (Instr.fsub 0 4 5).wellFormed = false := by decide
theorem test_wf_refuses_fmul : (Instr.fmul 2 4 5).wellFormed = false := by decide
theorem test_wf_refuses_fsqr : (Instr.fsqr 1 4).wellFormed = false := by decide
theorem test_wf_refuses_cswap_left : (Instr.cswap 3 4).wellFormed = false := by decide
theorem test_wf_refuses_cswap_right : (Instr.cswap 4 2).wellFormed = false := by decide

/-! Decoding: one word for every constructor, written out bit by bit from the patterns of R83 and R84. -/

theorem test_decode_fadd : decodeMicro 0b0001100001000101#16 = .ok (.fadd 8 4 5) := by decide
theorem test_decode_fsub : decodeMicro 0b0010100101000101#16 = .ok (.fsub 9 4 5) := by decide
theorem test_decode_fmul : decodeMicro 0b0011110010111000#16 = .ok (.fmul 12 11 8) := by decide
theorem test_decode_fsqr : decodeMicro 0b0100011011100000#16 = .ok (.fsqr 6 14) := by decide
theorem test_decode_cswap : decodeMicro 0b0101000001000110#16 = .ok (.cswap 4 6) := by decide
theorem test_decode_seti : decodeMicro 0b0110000011111110#16 = .ok (.seti 254) := by decide
theorem test_decode_setr : decodeMicro 0b0111000011111000#16 = .ok (.setr 248) := by decide
theorem test_decode_loopi : decodeMicro 0b1000000000000111#16 = .ok (.loopi 7) := by decide
theorem test_decode_loopr : decodeMicro 0b1001000000100000#16 = .ok (.loopr 32) := by decide
theorem test_decode_enc : decodeMicro 0b1010000010000000#16 = .ok (.enc 8) := by decide
theorem test_decode_clmp : decodeMicro 0b1011000000000000#16 = .ok .clmp := by decide
theorem test_decode_halt : decodeMicro 0b1100000000000000#16 = .ok .halt := by decide
theorem test_decode_clr : decodeCommand 0b00000000#8 = .ok .clr := by decide
theorem test_decode_mulbase : decodeCommand 0b00000001#8 = .ok .mulbase := by decide
theorem test_decode_clamp : decodeCommand 0b00000010#8 = .ok .clamp := by decide

/-- Words that B7 lists as illegal. -/
theorem test_decode_illegal :
    ([0x0000, 0xFFFF, 0x1345, 0x4E81, 0x5146, 0x5036, 0x61FE, 0x8047, 0x9120, 0xA081, 0xB001, 0xC800, 0xD000,
      0xE000] : List Word).all (fun w => (decodeMicro w).toOption.isNone) = true := by decide

/-! Micro-operations: B1 to B4. -/

/-- The operand `a` of B2. -/
def vecA : Nat := 0x559e436ff8a76fae783f6811a56e0289b51cd9b9c6359799c9344541a9fe2e45

/-- The operand `b` of B2. -/
def vecB : Nat := 0x102fec2971a04eafa7ea7b1c1bd82d1f9da24b44dbe71c1b3a53537f12aca0fc

/-- B2.3: (p − 1) + (p − 1) gives p − 2, with source and destination the same. -/
theorem test_fadd_wraps :
    ((run1 (.fadd 4 4 5) (fields 4 (fieldPrime - 1) 5 (fieldPrime - 1))).readField 4).val = fieldPrime - 2 := by decide

/-- B2: word 0x1345 names a constant: MicroFault, `f[3]` unchanged, STATUS 0x44. -/
theorem test_fadd_constant :
    (run1 (.fadd 3 4 5) (running 0)).readField 3 = toFe 121665 ∧
    (run1 (.fadd 3 4 5) (running 0)).windowRead 1 = 0x44 := by decide

/-- B2.12: b − a borrows. -/
theorem test_fsub_borrows :
    ((run1 (.fsub 8 5 4) (fields 4 vecA 5 vecB)).readField 8).val =
      0x3a91a8b978f8df012fab130a766a2a95e885718b15b18481711f0e3d68ae72a4 := by decide

/-- B2.10: 0 − 0 gives 0, not p. -/
theorem test_fsub_zero : (run1 (.fsub 8 0 0) State.reset).readField 8 = toFe 0 := by decide

/-- B2.20: the product of a and b. -/
theorem test_fmul_product :
    ((run1 (.fmul 8 4 5) (fields 4 vecA 5 vecB)).readField 8).val =
      0x21094427a5bd0fbcfd971aafeb250ea570be8d618a7212da61b637566ca68d12 := by decide

/-- B2.28: a square root of −1. -/
theorem test_fsqr_root :
    ((run1 (.fsqr 8 4)
      (fields 4 0x2b8324804fc1df0b2b4d00993dfbd7a72f431806ad2fe478c4ee1b274a0ea0b0 5 0)).readField 8).val =
      fieldPrime - 1 := by decide

/-- B3.1 and B3.3: `IBUF[31]` = 0x6a has bit 254 set and bit 252 clear. -/
theorem test_cswap_swaps :
    let s := { fields 4 1 6 9 with ibuf := (Vector.replicate 32 0).set 31 0x6a, bitidx := 254 }
    (run1 (.cswap 4 6) s).readField 4 = toFe 9 ∧ (run1 (.cswap 4 6) s).readField 6 = toFe 1 := by decide

theorem test_cswap_keeps :
    let s := { fields 4 5 6 7 with ibuf := (Vector.replicate 32 0).set 31 0x6a, bitidx := 252 }
    (run1 (.cswap 4 6) s).readField 4 = toFe 5 ∧ (run1 (.cswap 4 6) s).readField 6 = toFe 7 := by decide

/-- B3.6. -/
theorem test_seti : (run1 (.seti 254) State.reset).bitidx = 254 := by decide

/-- B3.7: at `upc` 0x1D with `bitidx` 254. -/
theorem test_loopi_taken :
    (run1 (.loopi 7) { running 0x1D with bitidx := 254 }).bitidx = 253 ∧
    (run1 (.loopi 7) { running 0x1D with bitidx := 254 }).upc = 7 := by decide

/-- B3.9: falls through, no wrap to 255. -/
theorem test_loopi_falls :
    (run1 (.loopi 7) (running 0x1D)).bitidx = 0 ∧ (run1 (.loopi 7) (running 0x1D)).upc = 0x1E := by decide

/-- B4.15. -/
theorem test_setr : (run1 (.setr 248) State.reset).rep = 248 := by decide

/-- B4.16: at `upc` 0x22 with `rep` 248. -/
theorem test_loopr_taken :
    (run1 (.loopr 0x20) { running 0x22 with rep := 248 }).rep = 247 ∧
    (run1 (.loopr 0x20) { running 0x22 with rep := 248 }).upc = 0x20 := by decide

/-- B4.17. -/
theorem test_loopr_falls :
    (run1 (.loopr 0x20) (running 0x22)).rep = 0 ∧ (run1 (.loopr 0x20) (running 0x22)).upc = 0x23 := by decide

/-- B4.20: 121665 = 0x01db41. -/
theorem test_enc_constant :
    (run1 (.enc 3) State.reset).obuf = (((Vector.replicate 32 0).set 0 0x41).set 1 0xdb).set 2 0x01 := by decide

/-- B4.13: p − 1 gives `ec`, 30 × `ff`, `7f`. -/
theorem test_enc_top :
    (run1 (.enc 4) (fields 4 (fieldPrime - 1) 5 0)).obuf =
      ((Vector.replicate 32 0xff).set 0 0xec).set 31 0x7f := by decide

/-- B1.2: 32 × `ff` clamps to `f8`, 30 × `ff`, `7f`. -/
theorem test_clmp_ones :
    (run1 .clmp { State.reset with ibuf := Vector.replicate 32 0xff }).ibuf =
      ((Vector.replicate 32 0xff).set 0 0xf8).set 31 0x7f := by decide

/-- B1.5: exactly the cleared bits were set. -/
theorem test_clmp_cleared :
    (run1 .clmp { State.reset with ibuf := ((Vector.replicate 32 0).set 0 0x07).set 31 0x80 }).ibuf =
      (Vector.replicate 32 0).set 31 0x40 := by decide

/-- R181: STATUS goes from 0x01 to 0x02, `upc` stays. -/
theorem test_halt :
    (run1 .halt (running 0x2D)).windowRead 1 = 0x02 ∧ (run1 .halt (running 0x2D)).upc = 0x2D := by decide

/-- R95, R94: the disassembly of word 0x1410 is FMOV. -/
theorem test_asm_fmov : asmText (.fadd 4 1 0) = "FMOV f4, f1" := by rfl

theorem test_asm_loop : asmText (.loopi 7) = "LOOPI 7" := by rfl

/-! Host commands: B6. -/

/-- B6.10: CLR after an error: STATUS and ILEN read 0x00. -/
theorem test_clr_after_error :
    let s := { loaded with err := true, errcode := 1, ovr := true }
    (run1 .clr s).windowRead 1 = 0 ∧ (run1 .clr s).windowRead 2 = 0 := by decide

/-- B6.13: CLR while BUSY is dropped: STATUS 0x09. -/
theorem test_clr_dropped : (run1 .clr (running 5)).windowRead 1 = 0x09 := by decide

/-- B6.11: MULBASE accepted. -/
theorem test_mulbase_starts :
    (run1 .mulbase loaded).windowRead 1 = 0x01 ∧ (run1 .mulbase loaded).upc = 0x02 := by decide

/-- B6.15: with ILEN = 33, OVR and DONE set: STATUS 0x1c. -/
theorem test_mulbase_length :
    (run1 .mulbase { State.reset with ilen := 33, ovr := true, done := true }).windowRead 1 = 0x1c := by decide

/-- R185: CLAMP accepted at 0x00. -/
theorem test_clamp_starts :
    (run1 .clamp { loaded with upc := 9 }).windowRead 1 = 0x01 ∧ (run1 .clamp { loaded with upc := 9 }).upc = 0 := by
  decide

/-- B6.4. -/
theorem test_clamp_length : (run1 .clamp { State.reset with ilen := 31 }).windowRead 1 = 0x14 := by decide

/-- B6.9: an illegal byte outranks the length. -/
theorem test_illegal_command : (step1 (writing 0 0xff { State.reset with ilen := 31 })).windowRead 1 = 0x34 := by decide

/-- B6.2: the first push. -/
theorem test_push_first :
    (step1 (writing 3 0x77 State.reset)).windowRead 0x20 = 0x77 ∧
    (step1 (writing 3 0x77 State.reset)).windowRead 2 = 1 := by decide

/-- B6.6: the count sticks at 63. -/
theorem test_push_saturates : (step1 (writing 3 0x77 { State.reset with ilen := 63 })).windowRead 2 = 63 := by decide

/-! Reset, fetch, ROM. -/

/-- The model's reset state is R42's, with the model's choices of log 1 and log 5. -/
theorem test_reset : State.reset = State.afterReset .rfc (Vector.replicate 12 (toFe 0)) := by rfl

/-- R211 and R212: the last used words and the first unused one. -/
theorem test_rom_ends :
    (romImage .rfc)[0x2D] = 0xC000 ∧ (romImage .rfc)[0x2E] = 0x0000 ∧ (romImage .rfc)[0x1D] = 0x8007 ∧
    (romImage .doc)[0x2C] = 0xC000 ∧ (romImage .doc)[0x2D] = 0x0000 ∧ (romImage .doc)[0x1C] = 0x8007 := by decide

/-- A word placed where the sequencer fetches runs as the first instruction after reset. -/
theorem test_fetch_word : (step1 (State.reset.withFetchWord 16 0x1826)).readField 8 = toFe 9 := by decide

/-- A command byte placed as the next host write runs as the first instruction after reset. -/
theorem test_fetch_command : (step1 (State.reset.withFetchWord 8 0x02)).windowRead 1 = 0x14 := by decide

theorem test_decode_table_word :
    decodeTableWord 16 0xB000 = some .clmp ∧ decodeTableWord 8 1 = some .mulbase ∧ decodeTableWord 8 3 = none := by
  decide

/-- PG6: after the illegal word STATUS is 0x44 and `upc` stays at it. -/
theorem test_micro_fault :
    let s := (running 2).withFetchWord 16 0x1200
    (step1 s).windowRead 1 = 0x44 ∧ (step1 s).upc = 2 ∧ (step1 s).readField 2 = toFe 9 := by decide

/-! Functions: B4.3 and B4.5; the ladder step of B3. -/

theorem test_inverse_two : (fieldInv (toFe 2)).val = (fieldPrime + 1) / 2 := by decide +kernel

theorem test_ladder_step :
    Points.initial.iterate .rfc true = ⟨toFe 324, toFe 36, toFe 6400, toFe 157681440⟩ ∧
    Points.initial.iterate .doc true = ⟨toFe 324, toFe 36, toFe 36, toFe 320⟩ := by decide

/-! Witnesses: for each statement with hypotheses, concrete states and operands that meet them. -/

theorem witness_DecodeOfEncodeIsIdentity : (Instr.cswap 4 15).WellFormed := by decide

theorem witness_EncodeOfDecodeIsIdentity : decode (.word 0x8007) = .ok (.loopi 7) := by decide

theorem witness_IllegalWordsRaiseMicroFault :
    legalWord 0x0000 = false ∧ (running 0x3F).busy = true ∧ (running 0x3F).fetch = 0x0000 := by decide

theorem witness_CommandBytesAreThree : 3 ≤ (0x03 : Byte).toNat ∧ State.reset.busy = false := by decide

theorem witness_FaddWritesSumModP : 4 ≤ (4 : Reg).val ∧ (3 : Reg).val < 4 := by decide

theorem witness_FsubWritesDifferenceModP : 4 ≤ (15 : Reg).val ∧ (0 : Reg).val < 4 := by decide

theorem witness_FmulWritesProductModP : 4 ≤ (8 : Reg).val ∧ (2 : Reg).val < 4 := by decide

theorem witness_FsqrWritesSquareModP : 4 ≤ (4 : Reg).val ∧ (1 : Reg) ≠ 0 ∧ (1 : Reg).val < 4 := by decide

theorem witness_FieldOperationsObeyRingLaws : feMul (toFe 0) (toFe 7) = toFe 0 := by decide

theorem witness_ConstantRegistersAreHardwired : ¬ (Instr.fsqr 3 4).WellFormed := by decide

theorem witness_PseudoInstructionsAsNamed : 4 ≤ (Reg.X2).val := by decide

theorem witness_CswapSwapsUnderScalarBit :
    4 ≤ (4 : Reg).val ∧ 4 ≤ (15 : Reg).val ∧ (1 : Reg) ≠ 0 ∧ ((3 : Reg).val < 4 ∨ (4 : Reg).val < 4) := by decide

theorem witness_SetiAndSetrLoadCounters :
    (0x6100 : Word).toNat / 0x1000 = 0x6 ∧ (0x6100 : Word).toNat / 0x100 % 0x10 ≠ 0 ∧
    (0x7F00 : Word).toNat / 0x1000 = 0x7 ∧ (0x7F00 : Word).toNat / 0x100 % 0x10 ≠ 0 := by decide

theorem witness_LoopiCountsBitIndexDown :
    { State.reset with bitidx := 1 }.bitidx ≠ 0 ∧ { State.reset with bitidx := 255 }.bitidx ≠ 0 ∧
    State.reset.bitidx = 0 ∧
    (0x8047 : Word).toNat / 0x1000 = 0x8 ∧ (0x8047 : Word).toNat / 0x40 % 0x40 ≠ 0 := by decide

theorem witness_LooprCountsRepeatDown :
    { State.reset with rep := 1 }.rep ≠ 0 ∧ { State.reset with rep := 255 }.rep ≠ 0 ∧ State.reset.rep = 0 ∧
    (0x9120 : Word).toNat / 0x1000 = 0x9 ∧ (0x9120 : Word).toNat / 0x40 % 0x40 ≠ 0 := by decide

theorem witness_EncWritesLittleEndianBytes :
    ((1 : Reg) ≠ 0 ∨ (0 : Reg) ≠ 0) ∧ ((0 : Reg) ≠ 0 ∨ (1 : Reg) ≠ 0) ∧
    ¬(0x40 ≤ 0x3F ∧ 0x3F ≤ 0x5F) ∧ ¬(0x40 ≤ 0x60 ∧ 0x60 ≤ 0x5F) := by decide

theorem witness_ClmpClampsInputBuffer :
    (0xB001 : Word).toNat / 0x1000 = 0xB ∧ (0xB001 : Word) ≠ 0xB000 := by decide

theorem witness_HaltEndsTheMicroprogram :
    (0xC800 : Word).toNat / 0x1000 = 0xC ∧ (0xC800 : Word) ≠ 0xC000 := by decide

theorem witness_ClrClearsBuffersAndStatus : loaded.busy = false ∧ (running 5).busy = true := by decide

theorem witness_CommandsStartTheirPrograms : loaded.busy = false ∧ loaded.ilen = 32 := by decide

theorem witness_WrongLengthRaisesInvalidScalarLength :
    State.reset.busy = false ∧ State.reset.ilen ≠ 32 ∧ { State.reset with ilen := 33 }.ilen ≠ 32 := by decide

theorem witness_CommandChecksHavePriority :
    (running 5).busy = true ∧ State.reset.busy = false ∧ 3 ≤ (0x03 : Byte).toNat ∧
    ((0x02 : Byte) = 1 ∨ (0x02 : Byte) = 2) ∧ State.reset.ilen ≠ 32 ∧
    (running 0x3F).err = false ∧ sequencerTurn (running 0x3F) = .next (step1 (running 0x3F)) ∧
    (step1 (running 0x3F)).err = true :=
  ⟨by decide, by decide, by decide, by decide, by decide, by decide, rfl, by decide⟩

theorem witness_DinPushStoresAndCounts : State.reset.busy = false ∧ (running 5).busy = true := by decide

theorem witness_PushedBytesFillTheBuffer :
    let s := { State.reset with turns := pushTurns [1, 2, 3] }
    s.busy = false ∧ s.ilen = 0 ∧ s.turns = pushTurns [1, 2, 3] := by decide

theorem witness_WindowReadsAsMapped :
    (0x04 ≤ 0x1F ∧ 0x1F ≤ 0x1F) ∧ (31 < 32) ∧ (0x60 ≤ 0x7F ∧ 0x7F ≤ 0x7F) := by decide

theorem witness_WindowWritesAsMapped : 0x7F ≤ 0x7F ∧ 0x7F ≠ 0x00 ∧ 0x7F ≠ 0x03 ∧ 0x01 ≤ 0x7F ∧ 0x01 ≠ 0x03 := by
  decide

theorem witness_AccessesOutsideTheBlockStop : (2 : Nat) ≠ 1 ∧ (0 : Nat) ≠ 1 ∧ 0x80 ≤ 0x80 := by decide

theorem witness_MicroStepRunsTheDecodedWord :
    (running 6).busy = true ∧ (running 6).turns = [] ∧ decodeMicro (running 6).fetch = .ok (.seti 254) ∧
    { running 6 with turns := [.sequencer] }.turns = .sequencer :: [] ∧
    decodeMicro (running 0x3F).fetch = .error .unassignedOpcode ∧ State.reset.busy = false := by decide

theorem witness_CommandStepRunsTheDecodedByte :
    decodeCommand 0x01 = .ok .mulbase ∧ (writing 0x00 0x01 loaded).turns = .host (.write 0x00 1 0x01) :: [] := by decide

theorem witness_ResetEventSetsEveryItem : (resetting (running 9)).turns = .reset :: [] := by decide

theorem witness_NoMicroOperationRaises : (Instr.enc 0).WellFormed ∧ (Instr.enc 0).kind? ≠ none := by decide

theorem witness_OnlyLoopsTransferControl :
    (Instr.loopi 7).kind? ≠ none ∧
    exec (.loopi 7) (running 0x1D) = .next (run1 (.loopi 7) (running 0x1D)) := ⟨by decide, rfl⟩

theorem witness_RomNeverChanges : step (running 0) = .next (step1 (running 0)) := rfl

theorem witness_FieldRegistersWrittenOnlyBy :
    step (running 4) = .next (step1 (running 4)) ∧ (step1 (running 4)).fregs ≠ (running 4).fregs := ⟨rfl, by decide⟩

theorem witness_InputBufferWrittenOnlyBy :
    step (running 0) = .next (step1 (running 0)) ∧ (step1 (running 0)).ibuf ≠ (running 0).ibuf := ⟨rfl, by decide⟩

/-- A state about to encode 9. -/
def encoding : State := { running 0x2C with fregs := Vector.replicate 12 (toFe 9) }

theorem witness_OutputBufferWrittenOnlyBy :
    step encoding = .next (step1 encoding) ∧ (step1 encoding).obuf ≠ encoding.obuf := ⟨rfl, by decide⟩

/-- A command runs, and the host writes CLR all the same. -/
def overrunning : State := writing 0x00 0x00 (running 5)

/-- The block is idle with OVR set, and the host writes CLR. -/
def clearing : State := writing 0x00 0x00 { State.reset with ovr := true }

theorem witness_OverrunIsStickyAndHarmless :
    step overrunning = .next (step1 overrunning) ∧ overrunning.busy = true ∧ WriteNext 0x00 0x00 overrunning ∧
    overrunning.ovr = false ∧ (step1 overrunning).ovr = true ∧
    step clearing = .next (step1 clearing) ∧ clearing.ovr = true ∧ (step1 clearing).ovr = false :=
  ⟨rfl, rfl, ⟨[], rfl⟩, rfl, rfl, rfl, rfl, rfl⟩

theorem witness_StatusInvariantIsKept :
    StatusInv (running 0x2D) ∧ step (running 0x2D) = .next (step1 (running 0x2D)) := ⟨by decide, rfl⟩

theorem witness_MicroFaultIsUnreachable :
    ControlInv .rfc (running 0x2D) ∧ step (running 0x2D) = .next (step1 (running 0x2D)) := ⟨by decide, rfl⟩

theorem witness_ResultTopBitStaysClear :
    ResultInv encoding ∧ step encoding = .next (step1 encoding) := ⟨by decide, rfl⟩

/-- Two states that differ in the scalar alone. -/
theorem witness_ControlIsIndependentOfSecrets :
    let t := { running 7 with ibuf := Vector.replicate 32 0xff }
    SameControl (running 7) t ∧ (running 7).ibuf ≠ t.ibuf :=
  ⟨⟨rfl, rfl, rfl, rfl, rfl, rfl, rfl, rfl, rfl, rfl, rfl⟩, by decide⟩

theorem witness_DurationIsIndependentOfSecrets :
    let t := { running 2 with obuf := Vector.replicate 32 0xff }
    SameControl (running 2) t ∧ (running 2).obuf ≠ t.obuf :=
  ⟨⟨rfl, rfl, rfl, rfl, rfl, rfl, rfl, rfl, rfl, rfl, rfl⟩, by decide⟩

theorem witness_ClampEstablishesTheInvariant : Clamped ((Vector.replicate 32 (0 : Byte)).set 31 0x40) := by decide

theorem witness_LittleEndianFormsAgree : (2 ^ 256 - 1 : Nat) < 2 ^ 256 := by norm_num

theorem witness_InversionChainComputesInverse : toFe 9 ≠ toFe 0 := by decide

theorem witness_ClampCommandClampsInPlace :
    loaded.rom = romImage .rfc ∧ loaded.turns = [] ∧ loaded.busy = false ∧ loaded.ilen = 32 ∧
    State.reset.rom = romImage .rfc ∧ State.reset.turns = [] ∧ State.reset.busy = false ∧ State.reset.ilen ≠ 32 := by
  decide

theorem witness_MicroprogramsComputeTheirFunctions :
    let s := { running 0x02 with rom := romImage .doc }
    s.rom = romImage .doc ∧ s.turns = [] ∧ s.busy = true ∧ s.upc = 0x02 ∧ (running 0x00).upc = 0x00 := by decide

theorem witness_MulbaseCommandYieldsMulBase :
    let s := { loaded with rom := romImage .doc }
    s.rom = romImage .doc ∧ s.turns = [] ∧ s.busy = false ∧ s.ilen = 32 ∧ State.reset.ilen ≠ 32 := by decide

theorem witness_HostCannotDisturbARunningCommand :
    overrunning.busy = true ∧ overrunning.turns = .host (.write 0x00 1 0x00) :: [] ∧
    ((∀ off bytes, Access.write 0x00 1 0x00 = .read off bytes → bytes = 1 ∧ off ≤ 0x7F) ∧
     ∀ off bytes v, Access.write 0x00 1 0x00 = .write off bytes v → bytes = 1 ∧ off ≤ 0x7F) := by
  refine ⟨rfl, rfl, fun off bytes h => by simp at h, fun off bytes v h => ?_⟩
  simp only [Access.write.injEq] at h
  omega

end Sys2Proof.Tests
end

section
/-! PROOFS. Bits, bytes and integers (R8, R9): a bit of LE(b) is a bit of a byte of b, a bit of a byte of LE32(v) is
a bit of v, and by these two LE and LE32 are inverse to each other. -/

namespace Sys2Proof.Proofs

open Sys2Proof.Machine Sys2Proof.Laws

/-- The first byte holds the low eight bits; each later byte is found by eight bits less. -/
theorem leList_testBit (bs : List Byte) (n : Nat) (h : n / 8 < bs.length) :
    (leList bs).testBit n = bs[n / 8].getLsbD (n % 8) := by
  induction bs generalizing n with
  | nil => simp at h
  | cons b bs ih =>
    rw [leList_cons, Nat.add_comm, Nat.testBit_two_pow_mul_add (i := 8) _ b.isLt]
    obtain hn | hn := Nat.lt_or_ge n 8
    · simp [hn, Nat.div_eq_of_lt hn, Nat.mod_eq_of_lt hn, BitVec.testBit_toNat]
    · obtain ⟨m, rfl⟩ := Nat.exists_eq_add_of_le' hn
      have hm : m / 8 < bs.length := by simpa using h
      simp [ih m hm]

/-- R8: bit n of LE(b) is bit `n mod 8` of byte `n div 8`. -/
theorem leValue_testBit (b : Vector Byte 32) (n : Nat) (h : n / 8 < 32) :
    (leValue b).testBit n = b[n / 8].getLsbD (n % 8) := by
  simp [leValue, leList_testBit, h]

/-- R8: bit j of byte i of LE32(v) is bit 8·i + j of v. -/
theorem le32_getLsbD (v i j : Nat) (hi : i < 32) (hj : j < 8) :
    (le32 v)[i].getLsbD j = v.testBit (8 * i + j) := by
  rw [le32_getElem, BitVec.getLsbD_ofNat, Nat.testBit_shiftRight]
  simp [hj]

/-- 32 bytes denote a 256-bit integer (R8). -/
theorem leValue_lt (b : Vector Byte 32) : leValue b < 2 ^ 256 := by
  simpa [leValue] using leList_lt b.toList

/-- LE(LE32(v)) = v for a 256-bit integer: the two agree in the bits below 256, and neither has a bit above. -/
theorem leValue_le32 {v : Nat} (hv : v < 2 ^ 256) : leValue (le32 v) = v := by
  refine Nat.eq_of_testBit_eq fun n => ?_
  obtain hn | hn := Nat.lt_or_ge n 256
  · rw [leValue_testBit _ n (by omega), le32_getLsbD v _ _ (by omega) (by omega), Nat.div_add_mod]
  · have hpow : 2 ^ 256 ≤ 2 ^ n := Nat.pow_le_pow_right (by decide) hn
    rw [Nat.testBit_lt_two_pow ((leValue_lt _).trans_le hpow), Nat.testBit_lt_two_pow (hv.trans_le hpow)]

/-- LE32(LE(b)) = b: bit j of byte i is bit 8·i + j of the integer both ways. -/
theorem le32_leValue (b : Vector Byte 32) : le32 (leValue b) = b := by
  refine Vector.ext fun i hi => BitVec.eq_of_getLsbD_eq fun j hj => ?_
  have hdiv : (8 * i + j) / 8 = i := by omega
  have hmod : (8 * i + j) % 8 = j := by omega
  calc (le32 (leValue b))[i].getLsbD j
      = (leValue b).testBit (8 * i + j) := le32_getLsbD _ i j hi hj
    _ = b[i].getLsbD j := by
      rw [leValue_testBit b _ (by omega)]
      simp only [hdiv, hmod]

/-- Settles O48: R8's bit of a byte, and the two inverse laws that follow from it. -/
theorem littleEndianFormsAgree : Obligations.LittleEndianFormsAgree := by
  unfold Obligations.LittleEndianFormsAgree
  exact ⟨fun b n => leValue_testBit b n.toNat (by have := n.isLt; omega),
    fun _ hv => leValue_le32 hv,
    fun b => ⟨leValue_lt b, le32_leValue b⟩⟩

end Sys2Proof.Proofs
end

section
/-! PROOFS. What one step can do, once for every kind of turn (R10, R69): the relation `StepEffect` is read off the
step function here, and what a step keeps or may write is then a case analysis on it. -/

namespace Sys2Proof.Proofs

open Sys2Proof.Machine Sys2Proof.Laws

variable {s t : State} {i : Instr}

/-! What a micro-operation can do -/

/-- The micro-operations that write field registers (R24). -/
def writesFields : Instr → Bool
  | .fadd _ _ _ | .fsub _ _ _ | .fmul _ _ _ | .fsqr _ _ | .cswap _ _ => true
  | _ => false

/-- What the micro-operation `i` makes of `s`, by the items it writes. -/
inductive MicroEffect (s : State) : Instr → State → Prop
  | fields {i : Instr} (fregs : Vector Fe 12) (hi : writesFields i = true) :
      MicroEffect s i { s with fregs := fregs }.advance
  | control {i : Instr} (upc : BitVec 6) (bitidx rep : BitVec 8) :
      MicroEffect s i { s with upc := upc, bitidx := bitidx, rep := rep }
  | encode (ra : Reg) : MicroEffect s (.enc ra) { s with obuf := le32 (s.readField ra).val }.advance
  | clamp : MicroEffect s .clmp { s with ibuf := clampBytes s.ibuf }.advance
  | halt : MicroEffect s .halt s.haltFlags
  | microFault {i : Instr} : MicroEffect s i (s.raiseError .microFault)

theorem microEffect_of_fieldResult {rd : Reg} {v : Fe} (hi : writesFields i = true)
    (h : s.fieldResult rd v = .next t) : MicroEffect s i t := by
  obtain ⟨-, rfl⟩ | ⟨-, rfl⟩ := fieldResult_cases h
  · exact .fields _ hi
  · exact .microFault

theorem microEffect_of_execCswap {ra rb : Reg} (h : execCswap ra rb s = .next t) :
    MicroEffect s (.cswap ra rb) t := by
  unfold execCswap at h
  split at h <;> cases h
  · exact .fields _ rfl
  · exact .microFault

theorem microEffect_of_execLoopi {tgt6 : BitVec 6} (h : execLoopi tgt6 s = .next t) :
    MicroEffect s (.loopi tgt6) t := by
  unfold execLoopi at h
  split at h <;> cases h <;> exact .control _ _ _

theorem microEffect_of_execLoopr {tgt6 : BitVec 6} (h : execLoopr tgt6 s = .next t) :
    MicroEffect s (.loopr tgt6) t := by
  unfold execLoopr at h
  split at h <;> cases h <;> exact .control _ _ _

/-- `exec` of a micro-operation has one of the six effects. -/
theorem microEffect_of_exec (hk : i.kind? ≠ none) (h : exec i s = .next t) : MicroEffect s i t := by
  cases i with
  | fadd rd ra rb => exact microEffect_of_fieldResult rfl h
  | fsub rd ra rb => exact microEffect_of_fieldResult rfl h
  | fmul rd ra rb => exact microEffect_of_fieldResult rfl h
  | fsqr rd ra => exact microEffect_of_fieldResult rfl h
  | cswap ra rb => exact microEffect_of_execCswap h
  | seti imm8 => cases h; exact .control _ _ _
  | setr imm8 => cases h; exact .control _ _ _
  | loopi tgt6 => exact microEffect_of_execLoopi h
  | loopr tgt6 => exact microEffect_of_execLoopr h
  | enc ra => cases h; exact .encode ra
  | clmp => cases h; exact .clamp
  | halt => cases h; exact .halt
  | clr | mulbase | clamp => exact absurd rfl hk

theorem accept_eq_ok {zeros regs : Bool} {j : Instr} (h : accept zeros regs i = .ok j) :
    zeros = true ∧ regs = true ∧ i = j := by
  cases zeros <;> cases regs <;> simp_all [accept]

/-- A word of the micro-ROM decodes to a micro-operation, never to a host command (R83). -/
theorem kind_ne_none_of_decodeMicro {w : Word} (h : decodeMicro w = .ok i) : i.kind? ≠ none := by
  unfold decodeMicro at h
  split at h
  case h_13 => cases h
  all_goals
    obtain ⟨-, -, rfl⟩ := accept_eq_ok h
    exact Option.some_ne_none _

/-! What a host access can do -/

theorem decodeCommand_eq_ok {v : Byte} (h : decodeCommand v = .ok i) :
    (v = 0x00 ∧ i = .clr) ∨ (v = 0x01 ∧ i = .mulbase) ∨ (v = 0x02 ∧ i = .clamp) := by
  unfold decodeCommand at h
  split at h <;> cases h <;> simp

/-- A `CMD` write while busy is dropped; an accepted one clears, starts a program, or is illegal (R182, R189). -/
theorem commandWrite_eq_next {v : Byte} (h : commandWrite v s = .next t) :
    (s.busy = true ∧ t = s.dropWrite) ∨
    (s.busy = false ∧
      ((v = 0x00 ∧ t = s.acceptCommand.clearAll) ∨
        (v = 0x01 ∧ t = s.acceptCommand.startProgram 0x02) ∨
        (v = 0x02 ∧ t = s.acceptCommand.startProgram 0x00) ∨
        (∃ e, decodeCommand v = .error e) ∧ t = s.acceptCommand.raiseError .illegalCommand)) := by
  obtain ⟨i, hi, hx⟩ | ⟨e, he, hx⟩ := commandWrite_cases v s <;> rw [hx] at h
  · obtain ⟨rfl, rfl⟩ | ⟨rfl, rfl⟩ | ⟨rfl, rfl⟩ := decodeCommand_eq_ok hi
    · exact (hostCommand_cases h).imp_right fun ⟨hb, ht⟩ => ⟨hb, .inl ⟨rfl, ht⟩⟩
    · exact (hostCommand_cases (body := fun u => u.startProgram 0x02) h).imp_right fun ⟨hb, ht⟩ =>
        ⟨hb, .inr (.inl ⟨rfl, ht⟩)⟩
    · exact (hostCommand_cases (body := fun u => u.startProgram 0x00) h).imp_right fun ⟨hb, ht⟩ =>
        ⟨hb, .inr (.inr (.inl ⟨rfl, ht⟩))⟩
  · exact (hostCommand_cases h).imp_right fun ⟨hb, ht⟩ => ⟨hb, .inr (.inr (.inr ⟨⟨e, he⟩, ht⟩))⟩

/-- Only `CMD` and `DIN` take writes (R63). -/
theorem windowWrite_eq_next {off : Nat} {v : Byte} (h : windowWrite off v s = .next t) :
    (off = 0x00 ∧ commandWrite v s = .next t) ∨ (off = 0x03 ∧ t = s.pushByte v) ∨
    (off ≠ 0x00 ∧ off ≠ 0x03 ∧ t = s) := by
  unfold windowWrite at h
  split at h
  next h0 => exact .inl ⟨h0, h⟩
  next h0 =>
    split at h <;> cases h
    next h3 => exact .inr (.inl ⟨h3, rfl⟩)
    next h3 => exact .inr (.inr ⟨h0, h3, rfl⟩)

/-- An access that has a step is one byte wide: a read, which only answers, or a write (R62, R63, R65). -/
theorem hostAccess_eq_next {a : Access} (h : hostAccess a s = .next t) :
    (∃ off, a = .read off 1 ∧ t = s.reply off) ∨ ∃ off v, a = .write off 1 v ∧ windowWrite off v s = .next t := by
  cases a with
  | read off bytes =>
    dsimp only [hostAccess] at h
    split at h
    · cases h
    next hw =>
      obtain rfl : bytes = 1 := not_not.1 hw
      split at h <;> cases h
      exact .inl ⟨off, rfl, rfl⟩
  | write off bytes v =>
    dsimp only [hostAccess] at h
    split at h
    · cases h
    next hw =>
      obtain rfl : bytes = 1 := not_not.1 hw
      split at h
      · cases h
      · exact .inr ⟨off, v, rfl, h⟩

/-! What a step can do -/

/-- The state in which the next turn is carried out: that turn is no longer to come (R69; log 3). -/
def takeTurn (s : State) : State := { s with turns := s.turns.tail }

theorem takeTurn_of_nil (h : s.turns = []) : takeTurn s = s := by
  cases s
  cases h
  rfl

theorem takeTurn_of_cons {u : Turn} {rest : List Turn} (h : s.turns = u :: rest) :
    takeTurn s = { s with turns := rest } := by
  simp [takeTurn, h]

section
variable (s : State)

@[simp] theorem takeTurn_fregs : (takeTurn s).fregs = s.fregs := rfl
@[simp] theorem takeTurn_upc : (takeTurn s).upc = s.upc := rfl
@[simp] theorem takeTurn_bitidx : (takeTurn s).bitidx = s.bitidx := rfl
@[simp] theorem takeTurn_rep : (takeTurn s).rep = s.rep := rfl
@[simp] theorem takeTurn_busy : (takeTurn s).busy = s.busy := rfl
@[simp] theorem takeTurn_done : (takeTurn s).done = s.done := rfl
@[simp] theorem takeTurn_err : (takeTurn s).err = s.err := rfl
@[simp] theorem takeTurn_ovr : (takeTurn s).ovr = s.ovr := rfl
@[simp] theorem takeTurn_errcode : (takeTurn s).errcode = s.errcode := rfl
@[simp] theorem takeTurn_ilen : (takeTurn s).ilen = s.ilen := rfl
@[simp] theorem takeTurn_ibuf : (takeTurn s).ibuf = s.ibuf := rfl
@[simp] theorem takeTurn_obuf : (takeTurn s).obuf = s.obuf := rfl
@[simp] theorem takeTurn_rom : (takeTurn s).rom = s.rom := rfl
@[simp] theorem takeTurn_freeCount : (takeTurn s).freeCount = s.freeCount := rfl
@[simp] theorem takeTurn_turns : (takeTurn s).turns = s.turns.tail := rfl
@[simp] theorem takeTurn_replies : (takeTurn s).replies = s.replies := rfl
@[simp] theorem takeTurn_fetch : (takeTurn s).fetch = s.fetch := rfl

end

/-- What one step makes of `s`, by the turn that is next. -/
inductive StepEffect (s : State) : State → Prop
  | idle (hseq : SequencerNext s) (hb : s.busy = false) : StepEffect s (takeTurn s)
  | micro {i : Instr} {t : State} (hi : MicroNext i s) (hx : exec i (takeTurn s) = .next t) : StepEffect s t
  | illegalWord {e : DecodeError} (hseq : SequencerNext s) (hb : s.busy = true) (he : decodeMicro s.fetch = .error e) :
      StepEffect s ((takeTurn s).raiseError .microFault)
  | read {off : Nat} {rest : List Turn} (hr : s.turns = .host (.read off 1) :: rest) :
      StepEffect s ((takeTurn s).reply off)
  | ignored {off : Nat} {v : Byte} (hw : WriteNext off v s) (h0 : off ≠ 0x00) (h3 : off ≠ 0x03) :
      StepEffect s (takeTurn s)
  | push {v : Byte} (hw : WriteNext 0x03 v s) : StepEffect s ((takeTurn s).pushByte v)
  | dropCommand {v : Byte} (hw : WriteNext 0x00 v s) (hb : s.busy = true) : StepEffect s (takeTurn s).dropWrite
  | clear (hw : WriteNext 0x00 0x00 s) (hb : s.busy = false) : StepEffect s (takeTurn s).acceptCommand.clearAll
  | mulbase (hw : WriteNext 0x00 0x01 s) (hb : s.busy = false) :
      StepEffect s ((takeTurn s).acceptCommand.startProgram 0x02)
  | clamp (hw : WriteNext 0x00 0x02 s) (hb : s.busy = false) :
      StepEffect s ((takeTurn s).acceptCommand.startProgram 0x00)
  | illegalCommand {v : Byte} {e : DecodeError} (hw : WriteNext 0x00 v s) (hb : s.busy = false)
      (he : decodeCommand v = .error e) :
      StepEffect s ((takeTurn s).acceptCommand.raiseError .illegalCommand)
  | reset (hr : ResetNext s) : StepEffect s (takeTurn s).resetEvent

theorem stepEffect_of_sequencerTurn (hseq : SequencerNext s) (h : sequencerTurn (takeTurn s) = .next t) :
    StepEffect s t := by
  unfold sequencerTurn at h
  split at h
  next hb =>
    obtain ⟨i, hi, hx⟩ | ⟨e, he, rfl⟩ := microStep_cases h
    · exact .micro ⟨hseq, hb, hi⟩ hx
    · exact .illegalWord hseq hb he
  next hb =>
    cases h
    exact .idle hseq (Bool.eq_false_iff.2 hb)

theorem stepEffect_of_windowWrite {off : Nat} {v : Byte} (hw : WriteNext off v s)
    (h : windowWrite off v (takeTurn s) = .next t) : StepEffect s t := by
  obtain ⟨rfl, hc⟩ | ⟨rfl, rfl⟩ | ⟨h0, h3, rfl⟩ := windowWrite_eq_next h
  · obtain ⟨hb, rfl⟩ | ⟨hb, ⟨rfl, rfl⟩ | ⟨rfl, rfl⟩ | ⟨rfl, rfl⟩ | ⟨⟨e, he⟩, rfl⟩⟩ := commandWrite_eq_next hc
    · exact .dropCommand hw hb
    · exact .clear hw hb
    · exact .mulbase hw hb
    · exact .clamp hw hb
    · exact .illegalCommand hw hb he
  · exact .push hw
  · exact .ignored hw h0 h3

/-- Every step has one of the effects. -/
theorem stepEffect_of_step (h : step s = .next t) : StepEffect s t := by
  obtain ⟨hs, hx⟩ | ⟨rest, hs, hx⟩ | ⟨a, rest, hs, hx⟩ | ⟨rest, hs, hx⟩ := step_cases s <;> rw [hx] at h
  · exact stepEffect_of_sequencerTurn (.inl hs) (by rwa [takeTurn_of_nil hs])
  · exact stepEffect_of_sequencerTurn (.inr ⟨rest, hs⟩) (by rwa [takeTurn_of_cons hs])
  · rw [← takeTurn_of_cons hs] at h
    obtain ⟨off, rfl, rfl⟩ | ⟨off, v, rfl, hw⟩ := hostAccess_eq_next h
    · exact .read hs
    · exact stepEffect_of_windowWrite ⟨rest, hs⟩ hw
  · rw [← takeTurn_of_cons hs] at h
    cases h
    exact .reset ⟨rest, hs⟩

/-- The micro-operation the sequencer executes next has one of the six effects. -/
theorem microEffect_of_microNext {u : State} (hi : MicroNext i s) (hx : exec i u = .next t) :
    MicroEffect u i t := by
  obtain ⟨-, -, hdec⟩ := hi
  exact microEffect_of_exec (kind_ne_none_of_decodeMicro hdec) hx

end Sys2Proof.Proofs
end

section
/-! PROOFS. The state of the block (10_state.md): the status invariant of R34, who writes the field registers and the
two buffers (R24, R37, R38), the constants (R23), and the state after reset (R42). -/

namespace Sys2Proof.Proofs

open Sys2Proof.Machine Sys2Proof.Laws

variable {s t : State} {i : Instr}

/-! The status invariant -/

theorem statusInv_raiseError {e : ErrKind} (he : e ≠ .entropySourceUnavailable) : StatusInv (s.raiseError e) := by
  cases e with
  | entropySourceUnavailable => exact absurd rfl he
  | invalidScalarLength | illegalCommand | microFault => simp [StatusInv, ErrKind.code]

theorem statusInv_acceptCommand : StatusInv s.acceptCommand := by simp [StatusInv]

theorem statusInv_startProgram (entry : BitVec 6) : StatusInv (s.acceptCommand.startProgram entry) := by
  obtain ⟨-, hx⟩ | ⟨-, hx⟩ := startProgram_cases s.acceptCommand entry <;> rw [hx]
  · simp [StatusInv]
  · exact statusInv_raiseError (by decide)

theorem statusInv_pushByte (h : StatusInv s) (v : Byte) : StatusInv (s.pushByte v) := by
  obtain ⟨-, hx⟩ | ⟨-, ibuf, hx, -⟩ := pushByte_cases s v <;> rw [hx] <;> exact h

/-- HALT runs only while `BUSY` is 1, and then `ERR` is 0. -/
theorem statusInv_haltFlags (hb : s.busy = true) (h : StatusInv s) : StatusInv s.haltFlags := by
  obtain ⟨-, hbe, -, hcode⟩ := h
  exact ⟨by simp, by simp, fun ⟨_, he⟩ => hbe ⟨hb, he⟩, hcode⟩

theorem MicroEffect.statusInv (hm : MicroEffect s i t) (hb : s.busy = true) (h : StatusInv s) : StatusInv t := by
  cases hm with
  | fields | control | encode | clamp => exact h
  | halt => exact statusInv_haltFlags hb h
  | microFault => exact statusInv_raiseError (by decide)

/-- Settles O41: a step leaves the four status items alone, raises an error, clears them, or ends a program. -/
theorem statusInvariantIsKept : Obligations.StatusInvariantIsKept := by
  unfold Obligations.StatusInvariantIsKept
  intro s t h hstep
  have hturn : StatusInv (takeTurn s) := h
  cases stepEffect_of_step hstep with
  | idle | read | ignored | dropCommand => exact hturn
  | micro hi hx =>
    have ⟨_, hb, _⟩ := hi
    exact (microEffect_of_microNext hi hx).statusInv hb hturn
  | illegalWord => exact statusInv_raiseError (by decide)
  | push => exact statusInv_pushByte hturn _
  | clear => exact statusInv_acceptCommand
  | mulbase | clamp => exact statusInv_startProgram _
  | illegalCommand => exact statusInv_raiseError (by decide)
  | reset => simp [StatusInv]

/-! The write sets -/

section
variable (s : State) (entry : BitVec 6) (v : Byte)

@[simp] theorem startProgram_fregs : (s.startProgram entry).fregs = s.fregs := by
  unfold State.startProgram; split <;> rfl

@[simp] theorem startProgram_ibuf : (s.startProgram entry).ibuf = s.ibuf := by
  unfold State.startProgram; split <;> rfl

@[simp] theorem startProgram_obuf : (s.startProgram entry).obuf = s.obuf := by
  unfold State.startProgram; split <;> rfl

@[simp] theorem pushByte_fregs : (s.pushByte v).fregs = s.fregs := by
  unfold State.pushByte; split <;> rfl

@[simp] theorem pushByte_obuf : (s.pushByte v).obuf = s.obuf := by
  unfold State.pushByte; split <;> rfl

end

/-- A push that changes IBUF is a stored one (R186). -/
theorem idle_and_lt_of_pushByte_ibuf_ne {v : Byte} (h : (s.pushByte v).ibuf ≠ s.ibuf) :
    s.busy = false ∧ s.ilen.toNat < 32 := by
  obtain ⟨-, hx⟩ | ⟨hb, ibuf, hx, ⟨-, rfl⟩ | ⟨hl, -⟩⟩ := pushByte_cases s v
  · simp [hx] at h
  · simp [hx] at h
  · exact ⟨hb, hl⟩

theorem MicroEffect.writesFields_of_fregs_ne (hm : MicroEffect s i t) (h : t.fregs ≠ s.fregs) :
    writesFields i = true := by
  cases hm with
  | fields _ hi => exact hi
  | control | encode | clamp | halt | microFault => exact absurd rfl h

theorem MicroEffect.eq_clmp_of_ibuf_ne (hm : MicroEffect s i t) (h : t.ibuf ≠ s.ibuf) : i = .clmp := by
  cases hm with
  | clamp => rfl
  | fields | control | encode | halt | microFault => exact absurd rfl h

theorem MicroEffect.eq_enc_of_obuf_ne (hm : MicroEffect s i t) (h : t.obuf ≠ s.obuf) : ∃ ra, i = .enc ra := by
  cases hm with
  | encode ra => exact ⟨ra, rfl⟩
  | fields | control | clamp | halt | microFault => exact absurd rfl h

/-- Settles O37: of the effects of a step only those of the five micro-operations, CLR and reset reach the register
file. -/
theorem fieldRegistersWrittenOnlyBy : Obligations.FieldRegistersWrittenOnlyBy := by
  unfold Obligations.FieldRegistersWrittenOnlyBy
  intro s t hstep hne
  cases stepEffect_of_step hstep with
  | idle | illegalWord | read | ignored | dropCommand | illegalCommand => exact absurd rfl hne
  | push | mulbase | clamp => simp at hne
  | clear hw hb => exact .inr (.inr (.inl ⟨hw, hb⟩))
  | reset hr => exact .inr (.inr (.inr hr))
  | @micro i _ hi hx =>
    have hw := (microEffect_of_microNext hi hx).writesFields_of_fregs_ne hne
    cases i with
    | fadd rd ra rb => exact .inl ⟨rd, ra, rb, .inl hi⟩
    | fsub rd ra rb => exact .inl ⟨rd, ra, rb, .inr (.inl hi)⟩
    | fmul rd ra rb => exact .inl ⟨rd, ra, rb, .inr (.inr hi)⟩
    | fsqr rd ra => exact .inr (.inl ⟨rd, ra, .inl hi⟩)
    | cswap ra rb => exact .inr (.inl ⟨ra, rb, .inr hi⟩)
    | _ => cases hw

/-- Settles O38: of the effects of a step only those of a stored push, CLMP, CLR and reset reach IBUF. -/
theorem inputBufferWrittenOnlyBy : Obligations.InputBufferWrittenOnlyBy := by
  unfold Obligations.InputBufferWrittenOnlyBy
  intro s t hstep hne
  cases stepEffect_of_step hstep with
  | idle | illegalWord | read | ignored | dropCommand | illegalCommand => exact absurd rfl hne
  | mulbase | clamp => simp at hne
  | push hw => exact .inl ⟨_, hw, idle_and_lt_of_pushByte_ibuf_ne (s := takeTurn s) hne⟩
  | clear hw hb => exact .inr (.inr (.inl ⟨hw, hb⟩))
  | reset hr => exact .inr (.inr (.inr hr))
  | micro hi hx =>
    obtain rfl := (microEffect_of_microNext hi hx).eq_clmp_of_ibuf_ne hne
    exact .inr (.inl hi)

/-- Settles O39: of the effects of a step only those of ENC, CLR and reset reach OBUF. -/
theorem outputBufferWrittenOnlyBy : Obligations.OutputBufferWrittenOnlyBy := by
  unfold Obligations.OutputBufferWrittenOnlyBy
  intro s t hstep hne
  cases stepEffect_of_step hstep with
  | idle | illegalWord | read | ignored | dropCommand | illegalCommand => exact absurd rfl hne
  | push | mulbase | clamp => simp at hne
  | clear hw hb => exact .inr (.inl ⟨hw, hb⟩)
  | reset hr => exact .inr (.inr hr)
  | micro hi hx =>
    obtain ⟨ra, rfl⟩ := (microEffect_of_microNext hi hx).eq_enc_of_obuf_ne hne
    exact .inl ⟨ra, hi⟩

/-! The constants -/

/-- `f[0]` .. `f[3]` read as 0, 1, 9 and 121665 (R23, R26). -/
theorem readField_constants (s : State) :
    (s.readField 0).val = 0 ∧ (s.readField 1).val = 1 ∧ (s.readField 2).val = 9 ∧ (s.readField 3).val = 121665 := by
  rw [readField_of_constant s 0 (by decide), readField_of_constant s 1 (by decide),
    readField_of_constant s 2 (by decide), readField_of_constant s 3 (by decide)]
  decide

theorem fieldResult_of_not_writable {rd : Reg} (h : ¬ Reg.writable rd = true) (v : Fe) :
    s.fieldResult rd v = .next (s.raiseError .microFault) := if_neg h

/-- An ill-formed term names a constant register as a destination, and only records MicroFault (log 10). -/
theorem exec_of_not_wellFormed (h : ¬ i.WellFormed) : exec i s = .next (s.raiseError .microFault) := by
  cases i with
  | fadd rd ra rb => exact fieldResult_of_not_writable h _
  | fsub rd ra rb => exact fieldResult_of_not_writable h _
  | fmul rd ra rb => exact fieldResult_of_not_writable h _
  | fsqr rd ra => exact fieldResult_of_not_writable h _
  | cswap ra rb => exact if_neg h
  | _ => exact absurd rfl h

/-- Settles O11: the constants are not stored, and an ill-formed term ends in MicroFault. -/
theorem constantRegistersAreHardwired : Obligations.ConstantRegistersAreHardwired := by
  unfold Obligations.ConstantRegistersAreHardwired
  intro s
  obtain ⟨h0, h1, h2, h3⟩ := readField_constants s
  exact ⟨h0, h1, h2, h3, fun i hi => exec_of_not_wellFormed hi⟩

/-! The state after reset -/

/-- With `STATUS`, `ILEN` and both buffers zero, every offset reads 0x00 (R62). -/
theorem windowRead_eq_zero (hst : s.statusByte = 0) (hl : s.ilen = 0) (hi : s.ibuf = Vector.replicate 32 0)
    (ho : s.obuf = Vector.replicate 32 0) (off : Nat) : s.windowRead off = 0 := by
  simp [State.windowRead, hst, hl, hi, ho]

theorem statusByte_afterReset (m : DblMode) (unspecified : Vector Fe 12) :
    (State.afterReset m unspecified).statusByte = 0 := by
  simp [State.statusByte, State.afterReset]

/-- Settles O32: the items by the definition of the reset state, the window by `windowRead_eq_zero`. -/
theorem resetStateAsTabled : Obligations.ResetStateAsTabled := by
  unfold Obligations.ResetStateAsTabled
  intro m unspecified s
  obtain ⟨h0, h1, h2, h3⟩ := readField_constants s
  exact ⟨h0, h1, h2, h3, rfl, rfl, rfl, rfl, rfl, rfl, rfl, rfl, rfl, rfl,
    windowRead_eq_zero (statusByte_afterReset m unspecified) rfl rfl rfl⟩

theorem statusInv_afterReset (m : DblMode) (unspecified : Vector Fe 12) :
    StatusInv (State.afterReset m unspecified) := by
  simp [StatusInv, State.afterReset]

theorem controlInv_afterReset (m : DblMode) (unspecified : Vector Fe 12) :
    ControlInv m (State.afterReset m unspecified) := by
  simp [ControlInv, State.afterReset]

theorem resultInv_afterReset (m : DblMode) (unspecified : Vector Fe 12) :
    ResultInv (State.afterReset m unspecified) := by
  simp [ResultInv, State.afterReset]

/-- Settles O44: `State.reset` is one of the states after reset. -/
theorem invariantsHoldAfterReset : Obligations.InvariantsHoldAfterReset := by
  unfold Obligations.InvariantsHoldAfterReset
  exact ⟨fun m u => ⟨statusInv_afterReset m u, controlInv_afterReset m u, resultInv_afterReset m u⟩,
    statusInv_afterReset _ _, controlInv_afterReset _ _, resultInv_afterReset _ _⟩

end Sys2Proof.Proofs
end

section
/-! PROOFS. The host window (20_memory.md): what an access of each offset and width does (R61 to R65, R39), what it
leaves alone while a command runs (R69, R189), and that no step writes the micro-ROM (R72). -/

namespace Sys2Proof.Proofs

open Sys2Proof.Machine Sys2Proof.Laws

variable {s t : State} {i : Instr} {off bytes : Nat}

/-! What each offset reads as -/

/-- The fields of `STATUS`, `BUSY` the least significant (R34). -/
theorem statusByte_toNat (s : State) :
    s.statusByte.toNat =
      s.errcode.toNat * 16 + s.ovr.toNat * 8 + s.err.toNat * 4 + s.done.toNat * 2 + s.busy.toNat := by
  have h : s.statusByte = (((s.errcode.concat s.ovr).concat s.err).concat s.done).concat s.busy := rfl
  rw [h]
  simp only [BitVec.toNat_concat]
  omega

theorem windowRead_status (s : State) : s.windowRead 0x01 = s.statusByte := rfl

theorem windowRead_ilen (s : State) : (s.windowRead 0x02).toNat = s.ilen.toNat :=
  BitVec.toNat_setWidth_of_le (b := s.ilen) (show 6 ≤ 8 by decide)

theorem windowRead_ibuf (s : State) (i : Nat) (h : i < 32) : s.windowRead (0x20 + i) = s.ibuf[i] := by
  have h1 : 0x20 + i ≠ 0x01 := by omega
  have h2 : 0x20 + i ≠ 0x02 := by omega
  have hr : 0x20 + i ≤ 0x3F := by omega
  simp [State.windowRead, h1, h2, hr]

theorem windowRead_obuf (s : State) (i : Nat) (h : i < 32) : s.windowRead (0x40 + i) = s.obuf[i] := by
  have h1 : 0x40 + i ≠ 0x01 := by omega
  have h2 : 0x40 + i ≠ 0x02 := by omega
  have hi : ¬ 0x40 + i ≤ 0x3F := by omega
  have hr : 0x40 + i ≤ 0x5F := by omega
  simp [State.windowRead, h1, h2, hi, hr]

/-- `CMD`, `DIN` and the reserved offsets read as 0x00 (R33, R36, R39). -/
theorem windowRead_unmapped (s : State) (h1 : off ≠ 0x01) (h2 : off ≠ 0x02)
    (hbuf : off < 0x20 ∨ 0x60 ≤ off) : s.windowRead off = 0 := by
  have hi : ¬ (0x20 ≤ off ∧ off ≤ 0x3F) := by omega
  have ho : ¬ (0x40 ≤ off ∧ off ≤ 0x5F) := by omega
  simp [State.windowRead, h1, h2, hi, ho]

/-! What each access does -/

theorem hostAccess_read (s : State) (h : off ≤ 0x7F) : hostAccess (.read off 1) s = .next (s.reply off) := by
  have hin : ¬ windowSize ≤ off := Nat.not_le.2 (Nat.lt_succ_of_le h)
  simp [hostAccess, hin]

theorem hostAccess_write (v : Byte) (s : State) (h : off ≤ 0x7F) :
    hostAccess (.write off 1 v) s = windowWrite off v s := by
  have hin : ¬ windowSize ≤ off := Nat.not_le.2 (Nat.lt_succ_of_le h)
  simp [hostAccess, hin]

theorem windowWrite_ignored (v : Byte) (s : State) (h0 : off ≠ 0x00) (h3 : off ≠ 0x03) :
    windowWrite off v s = .next s := by
  simp [windowWrite, h0, h3]

/-- Settles O27: offset by offset from the lemmas on `windowRead`, and the answer from `hostAccess_read`. -/
theorem windowReadsAsMapped : Obligations.WindowReadsAsMapped := by
  unfold Obligations.WindowReadsAsMapped
  intro s
  refine ⟨windowRead_unmapped s (by decide) (by decide) (by decide),
    windowRead_status s ▸ statusByte_toNat s, windowRead_ilen s,
    windowRead_unmapped s (by decide) (by decide) (by decide),
    fun off hlo hhi => ?_, windowRead_ibuf s, windowRead_obuf s, fun off hlo _ => ?_,
    fun off h => hostAccess_read s h⟩
  · exact windowRead_unmapped s (by omega) (by omega) (by omega)
  · exact windowRead_unmapped s (by omega) (by omega) (by omega)

/-- Settles O28: a one-byte write inside the window is `windowWrite`, which acts at `CMD` and `DIN` alone. -/
theorem windowWritesAsMapped : Obligations.WindowWritesAsMapped := by
  unfold Obligations.WindowWritesAsMapped
  intro v s
  refine ⟨hostAccess_write v s (by decide), hostAccess_write v s (by decide), fun off h h0 h3 => ?_⟩
  rw [hostAccess_write v s h, windowWrite_ignored v s h0 h3]

/-! The accesses without a step -/

theorem hostAccess_of_width_ne_one (v : Byte) (s : State) (h : bytes ≠ 1) :
    hostAccess (.read off bytes) s = .refused (.accessWidth bytes) ∧
    hostAccess (.write off bytes v) s = .refused (.accessWidth bytes) :=
  ⟨if_pos h, if_pos h⟩

theorem hostAccess_of_outside (v : Byte) (s : State) (h : 0x80 ≤ off) :
    hostAccess (.read off 1) s = .fault (.outsideWindow off) ∧
    hostAccess (.write off 1 v) s = .fault (.outsideWindow off) := by
  have hout : windowSize ≤ off := h
  simp [hostAccess, hout]

/-- The addresses the platform maps to the block are BASE .. BASE + 0x7F (R61). -/
theorem selectWindow_eq_some {addr : Nat} :
    selectWindow addr = some off ↔ addr = Config.base + off ∧ off < 0x80 := by
  have hsize : windowSize = 0x80 := rfl
  unfold selectWindow
  split
  · simp only [Option.some.injEq]
    omega
  · simp only [reduceCtorEq, false_iff]
    omega

/-- Settles O29: width, offset and the platform's selection, each by its own lemma. -/
theorem accessesOutsideTheBlockStop : Obligations.AccessesOutsideTheBlockStop := by
  unfold Obligations.AccessesOutsideTheBlockStop
  exact ⟨fun _ _ v s => ⟨hostAccess_of_width_ne_one v s, hostAccess_of_outside v s⟩, fun _ _ => selectWindow_eq_some⟩

/-! Accesses while a command runs -/

theorem hostCommand_of_busy (hb : s.busy = true) (body : State → State) :
    s.hostCommand body = .next s.dropWrite := by
  simp [State.hostCommand, hb]

theorem pushByte_of_busy (hb : s.busy = true) (v : Byte) : s.pushByte v = s.dropWrite := if_pos hb

/-- A `CMD` write of any byte is dropped while a command runs: whatever it decodes to is a `hostCommand` (R189). -/
theorem commandWrite_of_busy (hb : s.busy = true) (v : Byte) : commandWrite v s = .next s.dropWrite := by
  obtain ⟨i, hi, hx⟩ | ⟨_, _, hx⟩ := commandWrite_cases v s <;> rw [hx]
  · obtain ⟨-, rfl⟩ | ⟨-, rfl⟩ | ⟨-, rfl⟩ := decodeCommand_eq_ok hi
    · exact hostCommand_of_busy hb State.clearAll
    · exact hostCommand_of_busy hb fun u => u.startProgram 0x02
    · exact hostCommand_of_busy hb fun u => u.startProgram 0x00
  · exact hostCommand_of_busy hb _

/-- While a command runs a write is dropped at `CMD` and `DIN` and ignored elsewhere (R63, R189). -/
theorem windowWrite_of_busy (hb : s.busy = true) (off : Nat) (v : Byte) :
    windowWrite off v s = .next s.dropWrite ∨ windowWrite off v s = .next s := by
  by_cases h0 : off = 0x00
  · subst h0
    exact .inl (commandWrite_of_busy hb v)
  · by_cases h3 : off = 0x03
    · subst h3
      exact .inl (congrArg _ (pushByte_of_busy hb v))
    · exact .inr (windowWrite_ignored v s h0 h3)

theorem step_of_host {a : Access} {rest : List Turn} (h : s.turns = .host a :: rest) :
    step s = hostAccess a { s with turns := rest } := by
  simp only [step, h]

/-- Settles O56: a read adds to the host's record, a write is dropped with OVR set or ignored. -/
theorem hostCannotDisturbARunningCommand : Obligations.HostCannotDisturbARunningCommand := by
  unfold Obligations.HostCannotDisturbARunningCommand
  intro s a rest hb hs hread hwrite
  rw [step_of_host hs]
  cases a with
  | read off bytes =>
    obtain ⟨rfl, hin⟩ := hread off bytes rfl
    exact ⟨_, hostAccess_read _ hin, rfl⟩
  | write off bytes v =>
    obtain ⟨rfl, hin⟩ := hwrite off bytes v rfl
    rw [hostAccess_write v _ hin]
    obtain hx | hx := windowWrite_of_busy (s := { s with turns := rest }) hb off v
    · exact ⟨_, hx, rfl⟩
    · exact ⟨_, hx, rfl⟩

/-! The micro-ROM -/

@[simp] theorem startProgram_rom (s : State) (entry : BitVec 6) : (s.startProgram entry).rom = s.rom := by
  unfold State.startProgram; split <;> rfl

@[simp] theorem pushByte_rom (s : State) (v : Byte) : (s.pushByte v).rom = s.rom := by
  unfold State.pushByte; split <;> rfl

theorem MicroEffect.rom_eq (hm : MicroEffect s i t) : t.rom = s.rom := by
  cases hm <;> rfl

/-- Settles O36: none of the effects of a step reaches the micro-ROM. -/
theorem romNeverChanges : Obligations.RomNeverChanges := by
  unfold Obligations.RomNeverChanges
  intro s t hstep
  cases stepEffect_of_step hstep with
  | idle | illegalWord | read | ignored | dropCommand | clear | illegalCommand | reset => rfl
  | push | mulbase | clamp => simp
  | micro hi hx => exact (microEffect_of_microNext hi hx).rom_eq

end Sys2Proof.Proofs
end

section
/-! PROOFS. The encoding (30_encoding.md): a word is its fields, so decoding and encoding are inverse to each other
(R83, R84, R97). -/

namespace Sys2Proof.Proofs

open Sys2Proof.Laws

variable {i : Instr} {w : Word} {op : BitVec 4}

/-! From an instruction to its code and back -/

/-- The decoder reads from a packed word the opcode, the zero bits and the operands it was packed from; the register
constraint it tests is that of a well-formed instruction (R80, R90, R97). -/
theorem decodeMicro_of_encode (hwf : i.WellFormed) (h : encode i = .word w) : decodeMicro w = .ok i := by
  cases i with
  | fadd | fsub | fmul | fsqr | cswap =>
    cases h
    simpa [decodeMicro, accept, Instr.WellFormed, Instr.wellFormed] using hwf
  | seti | setr | loopi | loopr | enc =>
    cases h
    simp [decodeMicro, accept]
  | clmp | halt => cases h; rfl
  | clr | mulbase | clamp => cases h

theorem decode_encode (hwf : i.WellFormed) : decode (encode i) = .ok i := by
  cases h : encode i with
  | word w => exact decodeMicro_of_encode hwf h
  | command v => cases i <;> cases h <;> rfl

/-- A table row's number of bits tells a micro-ROM word from a `CMD` byte (R80, R81). -/
theorem decodeTableWord_code (c : Code) : decodeTableWord c.width c.toNat = (decode c).toOption := by
  cases c <;> simp [decodeTableWord, Code.width, Code.toNat, decode]

/-- Settles O1: `decode_encode`, and the table's numbers name the same codes. -/
theorem decodeOfEncodeIsIdentity : Obligations.DecodeOfEncodeIsIdentity := by
  unfold Obligations.DecodeOfEncodeIsIdentity
  intro i hwf
  rw [decodeTableWord_code, decode_encode hwf]
  exact ⟨rfl, rfl⟩

/-! From a word to its instruction and back: a word is its fields -/

/-- Two adjacent fields make one. -/
theorem extract_append {start len start' len' : Nat} (w : Word) (h : start' = start + len) :
    w.extractLsb' start' len' ++ w.extractLsb' start len = w.extractLsb' start (len' + len) :=
  BitVec.extractLsb'_append_extractLsb'_eq_extractLsb' h

theorem wordOp_append_low (w : Word) : wordOp w ++ w.extractLsb' 0 12 = w :=
  (extract_append w rfl).trans BitVec.extractLsb'_eq_self

theorem wordOp_append_rd_append_imm8 (w : Word) : wordOp w ++ w.extractLsb' 8 4 ++ wordImm8 w = w :=
  calc wordOp w ++ w.extractLsb' 8 4 ++ wordImm8 w
    _ = w.extractLsb' 8 8 ++ wordImm8 w := congrArg (· ++ _) (extract_append w rfl)
    _ = w := (extract_append w rfl).trans BitVec.extractLsb'_eq_self

theorem wordOp_append_mid_append_tgt6 (w : Word) : wordOp w ++ w.extractLsb' 6 6 ++ wordTgt6 w = w :=
  calc wordOp w ++ w.extractLsb' 6 6 ++ wordTgt6 w
    _ = w.extractLsb' 6 10 ++ wordTgt6 w := congrArg (· ++ _) (extract_append w rfl)
    _ = w := (extract_append w rfl).trans BitVec.extractLsb'_eq_self

theorem packRegs_fields (w : Word) : packRegs (wordOp w) (wordRd w) (wordRa w) (wordRb w) = w :=
  calc packRegs (wordOp w) (wordRd w) (wordRa w) (wordRb w)
    _ = w.extractLsb' 8 8 ++ w.extractLsb' 4 4 ++ w.extractLsb' 0 4 := congrArg (· ++ _ ++ _) (extract_append w rfl)
    _ = w.extractLsb' 4 12 ++ w.extractLsb' 0 4 := congrArg (· ++ _) (extract_append w rfl)
    _ = w := (extract_append w rfl).trans BitVec.extractLsb'_eq_self

theorem wordRd_eq_zero : wordRd w = 0 ↔ w.extractLsb' 8 4 = 0#4 := BitVec.toFin_inj (y := 0#4)

theorem packRegs_of_fields (hop : wordOp w = op) : packRegs op (wordRd w) (wordRa w) (wordRb w) = w :=
  hop ▸ packRegs_fields w

theorem packImm_of_fields (hop : wordOp w = op) (hz : wordRd w = 0) : packImm op (wordImm8 w) = w := by
  simpa [packImm, hop, wordRd_eq_zero.1 hz] using wordOp_append_rd_append_imm8 w

theorem packTgt_of_fields (hop : wordOp w = op) (hz : w.extractLsb' 6 6 = 0) : packTgt op (wordTgt6 w) = w := by
  simpa [packTgt, hop, hz] using wordOp_append_mid_append_tgt6 w

theorem packNone_of_fields (hop : wordOp w = op) (hz : w.extractLsb' 0 12 = 0) : packNone op = w := by
  simpa [packNone, hop, hz] using wordOp_append_low w

/-- What the decoder accepts is well-formed, and its code is made of the fields of the word (R90, R97). -/
theorem wellFormed_and_encode_of_decodeMicro (h : decodeMicro w = .ok i) : i.WellFormed ∧ encode i = .word w := by
  unfold decodeMicro at h
  split at h
  case h_13 => cases h
  all_goals
    rename_i hop
    obtain ⟨hz, hr, rfl⟩ := accept_eq_ok h
    refine ⟨hr, congrArg Code.word ?_⟩
    simp only [Bool.and_eq_true, beq_iff_eq] at hz
  case h_1 | h_2 | h_3 => exact packRegs_of_fields hop
  case h_4 | h_5 | h_10 => simpa only [hz] using packRegs_of_fields hop
  case h_6 | h_7 => exact packImm_of_fields hop hz
  case h_8 | h_9 => exact packTgt_of_fields hop hz
  case h_11 | h_12 => exact packNone_of_fields hop hz

/-- Settles O2: for a word by its fields, for a `CMD` byte by the list of the three. -/
theorem encodeOfDecodeIsIdentity : Obligations.EncodeOfDecodeIsIdentity := by
  unfold Obligations.EncodeOfDecodeIsIdentity
  intro c i h
  cases c with
  | word w => exact wellFormed_and_encode_of_decodeMicro h
  | command v =>
    obtain ⟨rfl, rfl⟩ | ⟨rfl, rfl⟩ | ⟨rfl, rfl⟩ := decodeCommand_eq_ok h <;> exact ⟨rfl, rfl⟩

end Sys2Proof.Proofs
end

section
/-! PROOFS. The legal words (30_encoding.md, section 4): the decoder accepts a word exactly when it matches a row of R83
and meets the constraint of R90, and any other word raises MicroFault (R91). -/

namespace Sys2Proof.Proofs

open Sys2Proof.Machine Sys2Proof.Laws

variable {s : State} {i : Instr} {w : Word}

/-! The rows of R83 -/

theorem append_eq_append_iff {m n : Nat} {x x' : BitVec m} {y y' : BitVec n} :
    x ++ y = x' ++ y' ↔ x = x' ∧ y = y' := by
  refine ⟨fun h => ⟨?_, ?_⟩, fun ⟨hx, hy⟩ => hx ▸ hy ▸ rfl⟩
  · simpa only [BitVec.extractLsb'_append_eq_left] using congrArg (BitVec.extractLsb' n m) h
  · simpa only [BitVec.extractLsb'_append_eq_right] using congrArg (BitVec.extractLsb' 0 n) h

/-- The rows of R83 by the fields of a word: the opcode, which of bits 11:0 must be zero, and the constraint of R90. -/
def fieldRows : List (BitVec 4 × BitVec 12 × (Nat → Bool)) :=
  [(0x1, 0x000, fun w => decide (4 ≤ w / 0x100 % 0x10)),
   (0x2, 0x000, fun w => decide (4 ≤ w / 0x100 % 0x10)),
   (0x3, 0x000, fun w => decide (4 ≤ w / 0x100 % 0x10)),
   (0x4, 0x00F, fun w => decide (4 ≤ w / 0x100 % 0x10)),
   (0x5, 0xF00, fun w => decide (4 ≤ w / 0x10 % 0x10) && decide (4 ≤ w % 0x10)),
   (0x6, 0xF00, fun _ => true),
   (0x7, 0xF00, fun _ => true),
   (0x8, 0xFC0, fun _ => true),
   (0x9, 0xFC0, fun _ => true),
   (0xA, 0xF0F, fun _ => true),
   (0xB, 0xFFF, fun _ => true),
   (0xC, 0xFFF, fun _ => true)]

theorem microRows_eq_fieldRows :
    microRows = fieldRows.map fun r => ((r.1 ++ 0#12).toNat, (0xF#4 ++ r.2.1).toNat, r.2.2) := rfl

/-- A match and mask of R83 compares the opcode and the must-be-zero bits. -/
theorem matchesRow_iff (w : Word) (op : BitVec 4) (zeros : BitVec 12) :
    w.toNat &&& (0xF#4 ++ zeros).toNat = (op ++ 0#12).toNat ↔
      wordOp w = op ∧ w.extractLsb' 0 12 &&& zeros = 0#12 := by
  have hop : wordOp w &&& 0xF#4 = wordOp w := BitVec.and_allOnes
  calc w.toNat &&& (0xF#4 ++ zeros).toNat = (op ++ 0#12).toNat
    _ ↔ w &&& (0xF#4 ++ zeros) = op ++ 0#12 := by rw [← BitVec.toNat_and, BitVec.toNat_inj]
    _ ↔ (wordOp w ++ w.extractLsb' 0 12) &&& (0xF#4 ++ zeros) = op ++ 0#12 := by rw [wordOp_append_low]
    _ ↔ wordOp w = op ∧ w.extractLsb' 0 12 &&& zeros = 0#12 := by
      rw [BitVec.and_append, append_eq_append_iff, hop]

theorem legalWord_eq_any_fieldRows (w : Word) :
    legalWord w = fieldRows.any fun r => wordOp w == r.1 && w.extractLsb' 0 12 &&& r.2.1 == 0#12 && r.2.2 w.toNat := by
  rw [Bool.eq_iff_iff]
  simp only [legalWord, microRows_eq_fieldRows, List.any_map, List.any_eq_true, Function.comp_apply, Bool.and_eq_true,
    beq_iff_eq, matchesRow_iff]

/-! The must-be-zero bits and the constrained registers, as the decoder reads them -/

section
variable {m n : Nat} {x : BitVec m} {y : BitVec n} {low : BitVec (m + n)}

theorem and_high_eq_zero (h : x ++ y = low) : low &&& (BitVec.allOnes m ++ 0#n) = 0#(m + n) ↔ x = 0#m := by
  simp [← h, ← BitVec.zero_append_zero, append_eq_append_iff]

theorem and_low_eq_zero (h : x ++ y = low) : low &&& (0#m ++ BitVec.allOnes n) = 0#(m + n) ↔ y = 0#n := by
  simp [← h, ← BitVec.zero_append_zero, append_eq_append_iff]

end

theorem wordRb_eq_zero : wordRb w = 0 ↔ w.extractLsb' 0 4 = 0#4 := BitVec.toFin_inj (y := 0#4)

theorem and_rbMask_eq_zero_iff (w : Word) : w.extractLsb' 0 12 &&& 0x00F#12 = 0#12 ↔ wordRb w = 0 :=
  (and_low_eq_zero (extract_append (start := 0) (len := 4) (len' := 8) w rfl)).trans wordRb_eq_zero.symm

theorem and_rdMask_eq_zero_iff (w : Word) : w.extractLsb' 0 12 &&& 0xF00#12 = 0#12 ↔ wordRd w = 0 :=
  (and_high_eq_zero (extract_append (start := 0) (len := 8) (len' := 4) w rfl)).trans wordRd_eq_zero.symm

theorem and_rdRbMask_eq_zero_iff (w : Word) :
    w.extractLsb' 0 12 &&& 0xF0F#12 = 0#12 ↔ wordRd w = 0 ∧ wordRb w = 0 := by
  rw [show 0xF0F#12 = 0xF00#12 ||| 0x00F#12 from rfl, BitVec.and_or_distrib_left, BitVec.or_eq_zero_iff,
    and_rdMask_eq_zero_iff, and_rbMask_eq_zero_iff]

theorem and_midMask_eq_zero_iff (w : Word) : w.extractLsb' 0 12 &&& 0xFC0#12 = 0#12 ↔ w.extractLsb' 6 6 = 0#6 :=
  and_high_eq_zero (extract_append (start := 0) (len := 6) (len' := 6) w rfl)

theorem and_lowMask (w : Word) : w.extractLsb' 0 12 &&& 0xFFF#12 = w.extractLsb' 0 12 := BitVec.and_allOnes

theorem digit_eq_wordRd (w : Word) : w.toNat / 0x100 % 0x10 = (wordRd w).val := by
  simp [wordRd, Nat.shiftRight_eq_div_pow]

theorem digit_eq_wordRa (w : Word) : w.toNat / 0x10 % 0x10 = (wordRa w).val := by
  simp [wordRa, Nat.shiftRight_eq_div_pow]

theorem digit_eq_wordRb (w : Word) : w.toNat % 0x10 = (wordRb w).val := by
  simp [wordRb]

theorem exists_accept_iff {zeros regs : Bool} :
    (∃ j, accept zeros regs i = .ok j) ↔ zeros = true ∧ regs = true := by
  cases zeros <;> cases regs <;> simp [accept]

/-- What the decoder accepts is a word that matches a row of R83 and meets its constraint of R90, and the converse: an
opcode 0x1 .. 0xC has one row, whose test on the other fields is the decoder's; any other opcode has none. -/
theorem exists_decodeMicro_iff_legalWord (w : Word) : (∃ i, decodeMicro w = .ok i) ↔ legalWord w = true := by
  rw [legalWord_eq_any_fieldRows]
  unfold decodeMicro
  split
  case h_13 => simp_all [fieldRows]
  all_goals
    rename_i hop
    simp [exists_accept_iff, fieldRows, hop, and_rbMask_eq_zero_iff, and_rdMask_eq_zero_iff, and_rdRbMask_eq_zero_iff,
      and_midMask_eq_zero_iff, and_lowMask, digit_eq_wordRd, digit_eq_wordRa, digit_eq_wordRb]

/-! What an illegal word does -/

theorem sequencerTurn_of_decode_error {e : DecodeError} (hb : s.busy = true) (he : decodeMicro s.fetch = .error e) :
    sequencerTurn s = .next (s.raiseError .microFault) := by
  simp [sequencerTurn, microStep, hb, he]

/-- A word that is not legal has no micro-operation, so the decoder names an error (R91). -/
theorem exists_decode_error_of_not_legalWord (h : legalWord w = false) : ∃ e, decodeMicro w = .error e := by
  cases hd : decodeMicro w with
  | error e => exact ⟨e, rfl⟩
  | ok i => simp [(exists_decodeMicro_iff_legalWord w).1 ⟨i, hd⟩] at h

/-- Settles O3: the rows and the decoder accept the same words, and a decode error is a MicroFault. -/
theorem illegalWordsRaiseMicroFault : Obligations.IllegalWordsRaiseMicroFault := by
  unfold Obligations.IllegalWordsRaiseMicroFault
  refine fun w => ⟨exists_decodeMicro_iff_legalWord w, fun hw s hb hfetch => ?_⟩
  obtain ⟨e, he⟩ := exists_decode_error_of_not_legalWord hw
  exact sequencerTurn_of_decode_error hb (hfetch ▸ he)

end Sys2Proof.Proofs
end

section
/-! PROOFS. The command bytes (R84, R92), the words printed in 95_test_vectors.md, and the pseudo-instructions (R95). -/

namespace Sys2Proof.Proofs

open Sys2Proof.Machine Sys2Proof.Laws

variable {s : State}

/-! The command bytes and the printed words -/

theorem decodeCommand_of_three_le {v : Byte} (h : 3 ≤ v.toNat) : decodeCommand v = .error .unknownCommand := by
  unfold decodeCommand
  split
  case h_4 => rfl
  all_goals exact absurd h (by decide)

theorem hostCommand_of_idle (hb : s.busy = false) (body : State → State) :
    s.hostCommand body = .next (body s.acceptCommand) := by
  simp [State.hostCommand, hb]

/-- R92: with `BUSY = 0` a byte that is no command is accepted, and then raises IllegalCommand. -/
theorem commandWrite_of_decode_error {v : Byte} {e : DecodeError} (hb : s.busy = false)
    (he : decodeCommand v = .error e) : commandWrite v s = .next (s.acceptCommand.raiseError .illegalCommand) := by
  simp only [commandWrite, he]
  exact hostCommand_of_idle hb _

/-- Raised in an idle state, an error leaves `BUSY` as it was (R224). -/
theorem raiseError_acceptCommand_of_idle (hb : s.busy = false) (e : ErrKind) :
    s.acceptCommand.raiseError e = { s with done := false, err := true, errcode := e.code } := by
  cases s
  cases hb
  rfl

/-- Settles O4: the three bytes by evaluation, every other byte by `commandWrite_of_decode_error`. -/
theorem commandBytesAreThree : Obligations.CommandBytesAreThree := by
  unfold Obligations.CommandBytesAreThree
  refine ⟨rfl, rfl, rfl, fun v hv => ⟨decodeCommand_of_three_le hv, fun s hb => ?_⟩⟩
  rw [commandWrite_of_decode_error hb (decodeCommand_of_three_le hv), raiseError_acceptCommand_of_idle hb]
  rfl

/-- Settles O5: each word is closed, and the decoder computes. -/
theorem specWordsDecodeAsPrinted : Obligations.SpecWordsDecodeAsPrinted := by
  unfold Obligations.SpecWordsDecodeAsPrinted
  decide

/-! The pseudo-instructions -/

theorem fieldResult_of_writable {rd : Reg} (h : 4 ≤ rd.val) (v : Fe) :
    s.fieldResult rd v = .next (s.writeField rd v).advance := if_pos ((writable_eq_true rd).2 h)

/-- A field micro-operation with a writable destination writes it and changes nothing else (R90, R121). -/
theorem fieldResult_writes {rd : Reg} (h : 4 ≤ rd.val) (v : Fe) (s : State) :
    ∃ t, s.fieldResult rd v = .next t ∧ t.readField rd = v ∧ OnlyFieldChanges rd s t :=
  ⟨_, fieldResult_of_writable h v, readField_writeField_self s rd v h,
    fun q hq => readField_writeField_of_ne s rd q v hq, rfl, fun _ => rfl⟩

theorem readField_zero (s : State) : (s.readField 0).val = 0 := (readField_constants s).1

/-- Settles O12: each is a field micro-operation, with `f[0]` = 0 or `ra` itself as a source. -/
theorem pseudoInstructionsAsNamed : Obligations.PseudoInstructionsAsNamed := by
  unfold Obligations.PseudoInstructionsAsNamed
  intro rd ra s hrd
  have hzero := readField_zero s
  refine ⟨?fmov, ?fdbl, ?fclr, ?fneg⟩
  case fmov =>
    obtain ⟨t, hx, hv, hframe⟩ := fieldResult_writes hrd (feAdd (s.readField ra) (s.readField 0)) s
    refine ⟨t, hx, hv.trans (Fin.ext ?_), hframe⟩
    rw [feAdd_val, hzero, Nat.add_zero, Nat.mod_eq_of_lt (s.readField ra).isLt]
  case fdbl =>
    obtain ⟨t, hx, hv, hframe⟩ := fieldResult_writes hrd (feAdd (s.readField ra) (s.readField ra)) s
    exact ⟨t, hx, by rw [hv, feAdd_val, Nat.two_mul], hframe⟩
  case fclr =>
    obtain ⟨t, hx, hv, hframe⟩ := fieldResult_writes hrd (feAdd (s.readField 0) (s.readField 0)) s
    exact ⟨t, hx, by rw [hv, feAdd_val, hzero, Nat.zero_mod], hframe⟩
  case fneg =>
    obtain ⟨t, hx, hv, hframe⟩ := fieldResult_writes hrd (feSub (s.readField 0) (s.readField ra)) s
    exact ⟨t, hx, by rw [hv, feSub_val, hzero, Nat.zero_add], hframe⟩

end Sys2Proof.Proofs
end

section
/-! PROOFS. With either image in the micro-ROM no illegal word is executed (R91, R226): each used word holds a legal
micro-operation after which `upc` is on a used word again (R211, R212). -/

namespace Sys2Proof.Proofs

open Sys2Proof.Machine Sys2Proof.Laws

variable {s t : State} {i : Instr} {m : DblMode}

/-! The used words of the images -/

/-- What the micro-operation at `upc` must be for `ControlInv` to be kept: wherever control goes from it is a used
word, and SETI loads at most 254. -/
def keepsControl (m : DblMode) (upc : BitVec 6) : Instr → Bool
  | .halt => true
  | .seti imm8 => decide ((upc + 1).toNat ≤ haltAddr m ∧ imm8.toNat ≤ 254)
  | .loopi tgt6 | .loopr tgt6 => decide ((upc + 1).toNat ≤ haltAddr m ∧ tgt6.toNat ≤ haltAddr m)
  | _ => decide ((upc + 1).toNat ≤ haltAddr m)

theorem exists_ok_of_toOption_any {x : Except DecodeError Instr} {p : Instr → Bool}
    (h : x.toOption.any p = true) : ∃ i, x = .ok i ∧ p i = true := by
  cases x with
  | error e => cases h
  | ok i => exact ⟨i, rfl, h⟩

/-- Each of the 46 used words of R211, and each of the 45 of R212, decodes to such a micro-operation. -/
theorem usedWords_keepControl (m : DblMode) : ∀ upc : BitVec 6, upc.toNat ≤ haltAddr m →
    (decodeMicro ((romImage m)[upc.toNat]'upc.isLt)).toOption.any (keepsControl m upc) = true := by
  cases m <;> decide

/-- While a command runs the sequencer fetches a used word. -/
theorem fetch_keepsControl (h : ControlInv m s) (hb : s.busy = true) :
    ∃ i, decodeMicro s.fetch = .ok i ∧ keepsControl m s.upc i = true := by
  obtain ⟨hrom, hrun, -, -⟩ := h
  obtain ⟨hupc, -⟩ := hrun hb
  simpa only [State.fetch, hrom] using exists_ok_of_toOption_any (usedWords_keepControl m s.upc hupc)

/-! The invariant through the shared updates -/

theorem controlInv_jump (h : ControlInv m s) {tgt : BitVec 6} (ht : tgt.toNat ≤ haltAddr m) :
    ControlInv m (s.jump tgt) := by
  obtain ⟨hrom, hrun, hbit, hcode⟩ := h
  exact ⟨hrom, fun hb => ⟨ht, (hrun hb).2⟩, hbit, hcode⟩

theorem controlInv_advance (h : ControlInv m s) (hn : (s.upc + 1).toNat ≤ haltAddr m) : ControlInv m s.advance :=
  controlInv_jump h hn

theorem controlInv_setBitidx (h : ControlInv m s) {v : BitVec 8} (hv : v.toNat ≤ 254) :
    ControlInv m { s with bitidx := v } := by
  obtain ⟨hrom, hrun, -, hcode⟩ := h
  exact ⟨hrom, hrun, hv, hcode⟩

/-- With `BUSY` at 0 nothing is asked of `upc` and `ILEN`. -/
theorem controlInv_of_idle (hrom : t.rom = romImage m) (hb : t.busy = false) (hbit : t.bitidx.toNat ≤ 254)
    (hcode : t.errcode ≠ 4) : ControlInv m t :=
  ⟨hrom, fun h => absurd (hb.symm.trans h) Bool.false_ne_true, hbit, hcode⟩

theorem controlInv_raiseError (h : ControlInv m s) {e : ErrKind} (he : e.code ≠ 4) :
    ControlInv m (s.raiseError e) := by
  obtain ⟨hrom, -, hbit, -⟩ := h
  exact controlInv_of_idle hrom rfl hbit he

theorem controlInv_haltFlags (h : ControlInv m s) : ControlInv m s.haltFlags := by
  obtain ⟨hrom, -, hbit, hcode⟩ := h
  exact controlInv_of_idle hrom rfl hbit hcode

theorem controlInv_acceptCommand (h : ControlInv m s) : ControlInv m s.acceptCommand := by
  obtain ⟨hrom, hrun, hbit, -⟩ := h
  exact ⟨hrom, hrun, hbit, by simp⟩

theorem controlInv_clearAll (h : ControlInv m s) (hb : s.busy = false) : ControlInv m s.clearAll := by
  obtain ⟨hrom, -, hbit, hcode⟩ := h
  exact controlInv_of_idle hrom hb hbit hcode

theorem controlInv_startProgram (h : ControlInv m s) {entry : BitVec 6} (he : entry.toNat ≤ haltAddr m) :
    ControlInv m (s.startProgram entry) := by
  obtain ⟨hl, hx⟩ | ⟨-, hx⟩ := startProgram_cases s entry <;> rw [hx]
  · obtain ⟨hrom, -, hbit, hcode⟩ := h
    exact ⟨hrom, fun _ => ⟨he, hl⟩, hbit, hcode⟩
  · exact controlInv_raiseError h (by decide)

theorem controlInv_pushByte (h : ControlInv m s) (v : Byte) : ControlInv m (s.pushByte v) := by
  obtain ⟨-, hx⟩ | ⟨hb, ibuf, hx, -⟩ := pushByte_cases s v <;> rw [hx]
  · exact h
  · obtain ⟨hrom, -, hbit, hcode⟩ := h
    exact controlInv_of_idle hrom hb hbit hcode

theorem controlInv_resetEvent (h : ControlInv m s) : ControlInv m s.resetEvent := by
  obtain ⟨hrom, -, -, -⟩ := h
  exact controlInv_of_idle hrom rfl (by simp) (by simp)

/-! The invariant through a micro-operation -/

theorem controlInv_fieldResult {rd : Reg} {v : Fe} (h : ControlInv m s) (hrd : Reg.writable rd = true)
    (hn : (s.upc + 1).toNat ≤ haltAddr m) (hx : s.fieldResult rd v = .next t) : ControlInv m t := by
  rw [fieldResult_of_writable ((writable_eq_true rd).1 hrd)] at hx
  cases hx
  exact controlInv_advance (s := s.writeField rd v) h hn

theorem controlInv_execCswap {ra rb : Reg} (h : ControlInv m s) (hwf : (Reg.writable ra && Reg.writable rb) = true)
    (hn : (s.upc + 1).toNat ≤ haltAddr m) (hx : execCswap ra rb s = .next t) : ControlInv m t := by
  rw [execCswap, if_pos hwf] at hx
  cases hx
  exact controlInv_advance (s := { s with fregs := _ }) h hn

theorem controlInv_execLoopi {tgt6 : BitVec 6} (h : ControlInv m s) (hn : (s.upc + 1).toNat ≤ haltAddr m)
    (ht : tgt6.toNat ≤ haltAddr m) (hx : execLoopi tgt6 s = .next t) : ControlInv m t := by
  unfold execLoopi at hx
  split at hx <;> cases hx
  next hne =>
    have hdec : (s.bitidx - 1).toNat ≤ 254 := by
      obtain ⟨-, -, hbit, -⟩ := h
      bv_omega
    exact controlInv_jump (controlInv_setBitidx h hdec) ht
  next => exact controlInv_advance h hn

theorem controlInv_execLoopr {tgt6 : BitVec 6} (h : ControlInv m s) (hn : (s.upc + 1).toNat ≤ haltAddr m)
    (ht : tgt6.toNat ≤ haltAddr m) (hx : execLoopr tgt6 s = .next t) : ControlInv m t := by
  unfold execLoopr at hx
  split at hx <;> cases hx
  · exact controlInv_jump (s := { s with rep := s.rep - 1 }) h ht
  · exact controlInv_advance h hn

/-- A well-formed micro-operation on a used word leads to a used word, or ends the program (R190). -/
theorem controlInv_exec (h : ControlInv m s) (hk : i.kind? ≠ none) (hwf : i.WellFormed)
    (hkeep : keepsControl m s.upc i = true) (hx : exec i s = .next t) : ControlInv m t := by
  cases i with
  | fadd | fsub | fmul | fsqr => exact controlInv_fieldResult h hwf (of_decide_eq_true hkeep) hx
  | cswap => exact controlInv_execCswap h hwf (of_decide_eq_true hkeep) hx
  | seti imm8 =>
    obtain ⟨hn, hv⟩ := of_decide_eq_true hkeep
    cases hx
    exact controlInv_advance (controlInv_setBitidx h hv) hn
  | loopi tgt6 =>
    obtain ⟨hn, ht⟩ := of_decide_eq_true hkeep
    exact controlInv_execLoopi h hn ht hx
  | loopr tgt6 =>
    obtain ⟨hn, ht⟩ := of_decide_eq_true hkeep
    exact controlInv_execLoopr h hn ht hx
  | setr | enc | clmp =>
    cases hx
    exact controlInv_advance h (of_decide_eq_true hkeep)
  | halt => cases hx; exact controlInv_haltFlags h
  | clr | mulbase | clamp => exact absurd rfl hk

/-- Settles O42: a sequencer's turn runs a used word, and a command starts at the used word 0x00 or 0x02. -/
theorem microFaultIsUnreachable : Obligations.MicroFaultIsUnreachable := by
  unfold Obligations.MicroFaultIsUnreachable
  intro m s t h hstep
  have hturn : ControlInv m (takeTurn s) := h
  cases stepEffect_of_step hstep with
  | idle | read | ignored | dropCommand => exact hturn
  | @micro i _ hi hx =>
    obtain ⟨-, hb, hdec⟩ := hi
    obtain ⟨j, hj, hkeep⟩ := fetch_keepsControl h hb
    obtain rfl : i = j := Except.ok.inj (hdec.symm.trans hj)
    have ⟨hwf, _⟩ := wellFormed_and_encode_of_decodeMicro hdec
    exact controlInv_exec hturn (kind_ne_none_of_decodeMicro hdec) hwf hkeep hx
  | illegalWord _ hb he =>
    obtain ⟨i, hi, -⟩ := fetch_keepsControl h hb
    exact absurd (he.symm.trans hi) (by simp)
  | push => exact controlInv_pushByte hturn _
  | clear _ hb => exact controlInv_clearAll (controlInv_acceptCommand hturn) hb
  | mulbase | clamp => exact controlInv_startProgram (controlInv_acceptCommand hturn) (by cases m <;> decide)
  | illegalCommand => exact controlInv_raiseError (controlInv_acceptCommand hturn) (by decide)
  | reset => exact controlInv_resetEvent hturn

end Sys2Proof.Proofs
end

section
/-! PROOFS. The clamp (40_keygen_clamp.md): Clamp(b) as a function of the 32 bytes (R111, R112), and the
micro-operation CLMP, which puts it in the place of IBUF (R113). -/

namespace Sys2Proof.Proofs

open Sys2Proof.Machine Sys2Proof.Laws

variable {b : Vector Byte 32} {w : Word}

/-! The bytes of Clamp(b) -/

theorem clampBytes_getElem_zero (b : Vector Byte 32) : (clampBytes b)[0] = b[0] &&& 0xF8 :=
  clampBytes_getElem b 0 (by decide)

theorem clampBytes_getElem_last (b : Vector Byte 32) : (clampBytes b)[31] = (b[31] &&& 0x7F) ||| 0x40 :=
  clampBytes_getElem b 31 (by decide)

theorem clampBytes_getElem_of_ne (b : Vector Byte 32) {i : Nat} (h : i < 32) (h0 : i ≠ 0) (h31 : i ≠ 31) :
    (clampBytes b)[i] = b[i] := by
  rw [clampBytes_getElem, if_neg h31, if_neg h0]

/-! The clamping invariant: byte by byte, over the 256 values of the two bytes the clamp touches -/

theorem lowBits_and_f8 (x : Byte) : (x &&& 0xF8).extractLsb' 0 3 = 0 := by
  revert x
  decide

theorem and_f8_eq_self_iff (x : Byte) : x &&& 0xF8 = x ↔ x.extractLsb' 0 3 = 0 := by
  revert x
  decide

theorem topBits_and_or (x : Byte) :
    ((x &&& 0x7F) ||| 0x40).getLsbD 7 = false ∧ ((x &&& 0x7F) ||| 0x40).getLsbD 6 = true := by
  revert x
  decide

theorem and_or_eq_self_iff (x : Byte) :
    (x &&& 0x7F) ||| 0x40 = x ↔ x.getLsbD 7 = false ∧ x.getLsbD 6 = true := by
  revert x
  decide

theorem clamped_clampBytes (b : Vector Byte 32) : Clamped (clampBytes b) := by
  rw [Clamped, clampBytes_getElem_zero, clampBytes_getElem_last]
  exact ⟨lowBits_and_f8 _, topBits_and_or _⟩

/-- The clamp is the identity when it is so on the two bytes it touches. -/
theorem clampBytes_eq_self_iff_bytes :
    clampBytes b = b ↔ b[0] &&& (0xF8 : Byte) = b[0] ∧ b[31] &&& (0x7F : Byte) ||| (0x40 : Byte) = b[31] := by
  refine ⟨fun h => ⟨?_, ?_⟩, fun ⟨h0, h31⟩ => Vector.ext fun i hi => ?_⟩
  · rw [← clampBytes_getElem_zero, h]
  · rw [← clampBytes_getElem_last, h]
  · rw [clampBytes_getElem]
    split_ifs with hlast hzero
    · subst hlast; exact h31
    · subst hzero; exact h0
    · rfl

theorem clampBytes_eq_self_iff : clampBytes b = b ↔ Clamped b := by
  rw [clampBytes_eq_self_iff_bytes, and_f8_eq_self_iff, and_or_eq_self_iff]

theorem clampBytes_idem (b : Vector Byte 32) : clampBytes (clampBytes b) = clampBytes b :=
  clampBytes_eq_self_iff.2 (clamped_clampBytes b)

/-! The integer of a clamped scalar -/

theorem two_pow_le_leValue (h : Clamped b) : 2 ^ 254 ≤ leValue b := by
  obtain ⟨-, -, hset⟩ := h
  exact Nat.ge_two_pow_of_testBit ((leValue_testBit b 254 (by decide)).trans hset)

/-- Bit 255 is clear, and a 256-bit integer has no bit above it. -/
theorem leValue_lt_of_clamped (h : Clamped b) : leValue b < 2 ^ 255 := by
  obtain ⟨-, hclear, -⟩ := h
  refine Nat.lt_pow_two_of_testBit _ fun i hi => ?_
  obtain rfl | hi := Nat.eq_or_lt_of_le hi
  · exact (leValue_testBit b 255 (by decide)).trans hclear
  · exact Nat.testBit_lt_two_pow ((leValue_lt b).trans_le (Nat.pow_le_pow_right (by decide) hi))

/-- The low three bits of LE(b) are those of its first byte (R8). -/
theorem leValue_mod_two_pow_three (b : Vector Byte 32) : leValue b % 2 ^ 3 = (b[0].extractLsb' 0 3).toNat := by
  refine Nat.eq_of_testBit_eq fun j => ?_
  rw [Nat.testBit_mod_two_pow, BitVec.testBit_toNat, BitVec.getLsbD_extractLsb', Nat.zero_add]
  by_cases hj : j < 3
  · have hdiv : j / 8 = 0 := by omega
    have hmod : j % 8 = j := by omega
    rw [leValue_testBit b j (by omega)]
    simp only [hdiv, hmod]
  · simp [hj]

theorem eight_dvd_leValue (h : Clamped b) : 8 ∣ leValue b := by
  obtain ⟨hlow, -, -⟩ := h
  exact Nat.dvd_of_mod_eq_zero ((leValue_mod_two_pow_three b).trans (congrArg BitVec.toNat hlow))

/-- Settles O47: the clamp's two bytes decide the invariant, and the bits it fixes bound and divide LE(b). -/
theorem clampEstablishesTheInvariant : Obligations.ClampEstablishesTheInvariant := by
  unfold Obligations.ClampEstablishesTheInvariant
  exact fun b => ⟨clamped_clampBytes b, clampBytes_idem b, clampBytes_eq_self_iff,
    fun h => ⟨two_pow_le_leValue h, leValue_lt_of_clamped h, eight_dvd_leValue h⟩⟩

/-! CLMP -/

/-- The opcode is the leading hexadecimal digit of a word (R80). -/
theorem wordOp_eq_of_digit {op : BitVec 4} (h : w.toNat / 0x1000 = op.toNat) : wordOp w = op := by
  apply BitVec.eq_of_toNat_eq
  have hlt := op.isLt
  rw [wordOp, BitVec.extractLsb'_toNat, Nat.shiftRight_eq_div_pow]
  omega

/-- 0xB000 is the one word of opcode 0xB with bits 11:0 zero (R83, R90). -/
theorem decodeMicro_eq_nonzeroField_of_ne_clmp (hop : wordOp w = 0xB) (hw : w ≠ 0xB000) :
    decodeMicro w = .error .nonzeroField := by
  have hlow : w.extractLsb' 0 12 ≠ 0#12 := fun hz => hw (packNone_of_fields hop hz).symm
  simp [decodeMicro, hop, accept, hlow]

/-- A byte of the window reads as before a change of IBUF that leaves that byte alone (R62). -/
theorem windowRead_setIbuf (s : State) {ibuf : Vector Byte 32} {off : Nat}
    (h : ∀ (i : Nat) (hi : i < 32), off = 0x20 + i → ibuf[i] = s.ibuf[i]) :
    { s with ibuf := ibuf }.windowRead off = s.windowRead off := by
  by_cases hr : 0x20 ≤ off ∧ off ≤ 0x3F
  · obtain ⟨hlo, hhi⟩ := hr
    obtain ⟨i, rfl⟩ := Nat.exists_eq_add_of_le hlo
    have hi : i < 32 := by omega
    rw [windowRead_ibuf _ i hi, windowRead_ibuf s i hi, h i hi rfl]
  · have hst : { s with ibuf := ibuf }.statusByte = s.statusByte := rfl
    simp only [State.windowRead, hr, dite_false, hst]

/-- CLMP reaches the window at the offsets of `IBUF[0]` and `IBUF[31]` alone. -/
theorem windowRead_clampBytes (s : State) {off : Nat} (h0 : off ≠ 0x20) (h31 : off ≠ 0x3F) :
    { s with ibuf := clampBytes s.ibuf }.windowRead off = s.windowRead off :=
  windowRead_setIbuf s fun i hi hoff => clampBytes_getElem_of_ne s.ibuf hi (by omega) (by omega)

/-- Settles O18: CLMP is the clamp of IBUF followed by the advance of `upc`. -/
theorem clmpClampsInputBuffer : Obligations.ClmpClampsInputBuffer := by
  unfold Obligations.ClmpClampsInputBuffer
  refine ⟨rfl, fun w hop hw => ?_, fun s => ⟨{ s with ibuf := clampBytes s.ibuf }.advance, rfl,
    clampBytes_getElem_zero s.ibuf, clampBytes_getElem_last s.ibuf, fun i hi h0 h31 => ?_, rfl, rfl,
    fun off h0 h31 => ?_⟩⟩
  · exact decodeMicro_eq_nonzeroField_of_ne_clmp (wordOp_eq_of_digit (op := 0xB) hop) hw
  · exact clampBytes_getElem_of_ne s.ibuf hi h0 h31
  · rw [windowRead_advance, windowRead_clampBytes s h0 h31]

end Sys2Proof.Proofs
end

section
/-! PROOFS. The field arithmetic (41_field_arithmetic.md): what FADD, FSUB, FMUL and FSQR have in common (R90, R121 to
R124), and the ring laws (R125), which are those of the integers modulo p. -/

namespace Sys2Proof.Proofs

open Sys2Proof.Machine Sys2Proof.Laws

variable {s : State} {i : Instr} {w : Word} {rd ra rb : Reg}

/-! The words of the micro-operations on registers -/

/-- The spec writes a word of three register fields by its hexadecimal digits, the encoder by its bits (R80, R83). -/
theorem hexWord_eq_packRegs (op : BitVec 4) (rd ra rb : Reg) : hexWord op.toNat rd ra rb = packRegs op rd ra rb := by
  have hval : (hexWord op.toNat rd ra rb).toNat = op.toNat * 0x1000 + rd * 0x100 + ra * 0x10 + rb :=
    Nat.mod_eq_of_lt (by have := op.isLt; omega)
  have hop : wordOp (hexWord op.toNat rd ra rb) = op := wordOp_eq_of_digit (by omega)
  have hrd := digit_eq_wordRd (hexWord op.toNat rd ra rb)
  have hra := digit_eq_wordRa (hexWord op.toNat rd ra rb)
  have hrb := digit_eq_wordRb (hexWord op.toNat rd ra rb)
  rw [← packRegs_of_fields hop]
  congr 1 <;> exact Fin.ext (by omega)

/-- The word of a micro-operation that is not well-formed names a constant register (R90, R91). -/
theorem decodeMicro_of_encode_of_not_wellFormed (hwf : ¬ i.WellFormed) (h : encode i = .word w) :
    decodeMicro w = .error .constantRegister := by
  cases i with
  | fadd | fsub | fmul | fsqr | cswap =>
    cases h
    simpa [decodeMicro, accept, Instr.WellFormed, Instr.wellFormed] using hwf
  | _ => exact absurd rfl hwf

/-- Bits 3:0 of FSQR must be zero (R91). -/
theorem decodeMicro_fsqr_of_ne_zero (rd ra : Reg) (h : rb ≠ 0) :
    decodeMicro (packRegs 0x4 rd ra rb) = .error .nonzeroField := by
  simp [decodeMicro, accept, h]

/-! The four micro-operations: each ends in `fieldResult`, and is well-formed when its destination can be written -/

section
variable (op : BitVec 4) (hwf : i.wellFormed = Reg.writable rd) (henc : encode i = .word (packRegs op rd ra rb))
include hwf henc

/-- A legal word decodes to its micro-operation, which writes the result to `rd` and changes nothing else. -/
theorem fieldMicro_of_writable (hrd : 4 ≤ rd.val) (v : Fe) (hx : exec i s = s.fieldResult rd v) :
    decodeMicro (hexWord op.toNat rd ra rb) = .ok i ∧
      ∃ t, exec i s = .next t ∧ (t.readField rd).val = v.val ∧ OnlyFieldChanges rd s t := by
  obtain ⟨t, ht, hread, hframe⟩ := fieldResult_writes hrd v s
  rw [hexWord_eq_packRegs]
  have hlegal : i.WellFormed := hwf.trans ((writable_eq_true rd).2 hrd)
  exact ⟨decodeMicro_of_encode hlegal henc, t, hx.trans ht, congrArg _ hread, hframe⟩

/-- With a constant register as destination the word is illegal, and the term raises MicroFault (R90; log 10). -/
theorem fieldMicro_of_constant (hrd : rd.val < 4) :
    decodeMicro (hexWord op.toNat rd ra rb) = .error .constantRegister ∧
      exec i s = .next (s.raiseError .microFault) := by
  have hill : ¬ i.WellFormed := fun h => Nat.not_le_of_lt hrd ((writable_eq_true rd).1 (hwf.symm.trans h))
  rw [hexWord_eq_packRegs]
  exact ⟨decodeMicro_of_encode_of_not_wellFormed hill henc, exec_of_not_wellFormed hill⟩

end

/-- Settles O6: FADD is a field micro-operation of opcode 0x1 with the result `feAdd`. -/
theorem faddWritesSumModP : Obligations.FaddWritesSumModP := by
  unfold Obligations.FaddWritesSumModP
  intro rd ra rb s
  exact ⟨fun hrd => fieldMicro_of_writable 0x1 rfl rfl hrd (feAdd (s.readField ra) (s.readField rb)) rfl,
    fieldMicro_of_constant 0x1 rfl rfl⟩

/-- Settles O7: FSUB is a field micro-operation of opcode 0x2 with the result `feSub`. -/
theorem fsubWritesDifferenceModP : Obligations.FsubWritesDifferenceModP := by
  unfold Obligations.FsubWritesDifferenceModP
  intro rd ra rb s
  exact ⟨fun hrd => fieldMicro_of_writable 0x2 rfl rfl hrd (feSub (s.readField ra) (s.readField rb)) rfl,
    fieldMicro_of_constant 0x2 rfl rfl⟩

/-- Settles O8: FMUL is a field micro-operation of opcode 0x3 with the result `feMul`. -/
theorem fmulWritesProductModP : Obligations.FmulWritesProductModP := by
  unfold Obligations.FmulWritesProductModP
  intro rd ra rb s
  exact ⟨fun hrd => fieldMicro_of_writable 0x3 rfl rfl hrd (feMul (s.readField ra) (s.readField rb)) rfl,
    fieldMicro_of_constant 0x3 rfl rfl⟩

/-- Settles O9: FSQR is a field micro-operation of opcode 0x4 with the result `feSqr`, which is `feMul` of `ra` with
itself. -/
theorem fsqrWritesSquareModP : Obligations.FsqrWritesSquareModP := by
  unfold Obligations.FsqrWritesSquareModP
  intro rd ra s
  refine ⟨fun hrd => ?legal, fun rb hrb => ?nonzero, fieldMicro_of_constant (rb := 0) 0x4 rfl rfl⟩
  case legal =>
    obtain ⟨hdec, heffect⟩ := fieldMicro_of_writable (i := .fsqr rd ra) (s := s) (rb := 0) 0x4 rfl rfl hrd
      (feSqr (s.readField ra)) rfl
    exact ⟨hdec, rfl, heffect⟩
  case nonzero => exact hexWord_eq_packRegs 0x4 rd ra rb ▸ decodeMicro_fsqr_of_ne_zero rd ra hrb

/-! The ring laws -/

/-- A field element as an integer modulo p, where the ring laws are the library's (R120). -/
def residue (a : Fe) : ZMod fieldPrime := a.val

theorem residue_injective : Function.Injective residue := fun a b h => by
  have hmod := (ZMod.natCast_eq_natCast_iff' a.val b.val fieldPrime).1 h
  rw [Nat.mod_eq_of_lt a.isLt, Nat.mod_eq_of_lt b.isLt] at hmod
  exact Fin.ext hmod

@[simp] theorem residue_toFe (n : Nat) : residue (toFe n) = n := ZMod.natCast_mod n fieldPrime

@[simp] theorem residue_feAdd (a b : Fe) : residue (feAdd a b) = residue a + residue b :=
  (residue_toFe _).trans (Nat.cast_add _ _)

@[simp] theorem residue_feMul (a b : Fe) : residue (feMul a b) = residue a * residue b :=
  (residue_toFe _).trans (Nat.cast_mul _ _)

/-- Adding p before the subtraction is adding 0 (R122). -/
@[simp] theorem residue_feSub (a b : Fe) : residue (feSub a b) = residue a - residue b := by
  have hle : b.val ≤ a.val + fieldPrime := Nat.le_add_left_of_le b.isLt.le
  have hcast : residue (feSub a b) = ((a.val + fieldPrime - b.val : Nat) : ZMod fieldPrime) := residue_toFe _
  rw [hcast, Nat.cast_sub hle, Nat.cast_add, ZMod.natCast_self, add_zero]
  rfl

/-- The integers modulo a prime have no zero divisors (R125). -/
theorem eq_zero_or_eq_zero_of_feMul_eq_zero {a b : Fe} (h : feMul a b = toFe 0) : a = toFe 0 ∨ b = toFe 0 := by
  have hp : Fact (Nat.Prime fieldPrime) := ⟨fieldPrime_prime⟩
  have hmul : residue a * residue b = residue (toFe 0) := (residue_feMul a b).symm.trans (congrArg residue h)
  have hzero : residue (toFe 0) = 0 := (residue_toFe 0).trans Nat.cast_zero
  rw [hzero] at hmul
  exact (mul_eq_zero.1 hmul).imp (fun ha => residue_injective (ha.trans hzero.symm))
    fun hb => residue_injective (hb.trans hzero.symm)

/-- Settles O10: each law holds of the residues, and a field element is given by its residue. -/
theorem fieldOperationsObeyRingLaws : Obligations.FieldOperationsObeyRingLaws := by
  unfold Obligations.FieldOperationsObeyRingLaws
  intro a b c
  refine ⟨?addComm, ?mulComm, ?addAssoc, ?mulAssoc, ?mulAdd, ?addZero, ?mulOne, ?mulZero, ?subAdd, ?subSelf, ?zeroSub,
    eq_zero_or_eq_zero_of_feMul_eq_zero⟩
  case zeroSub => rw [feSub_val, toFe_val, Nat.zero_mod, Nat.zero_add]
  all_goals
    apply residue_injective
    simp only [residue_feAdd, residue_feMul, residue_feSub, residue_toFe, Nat.cast_zero, Nat.cast_one]
    ring

end Sys2Proof.Proofs
end

section
/-! PROOFS. The ladder's micro-operations CSWAP, SETI, LOOPI (42_ladder.md), with SETR (43_inversion_affine.md) beside
SETI: their words (R80, R83, R91) and their effects (R151, R152, R153, R167). Then bit 255 of the scalar, which the
ladder does not read (R140). -/

namespace Sys2Proof.Proofs

open Sys2Proof.Machine Sys2Proof.Laws

variable {s : State} {w : Word} {op : BitVec 4} {ra rb : Reg}

/-! The words with an immediate or a target, and the bits that must be zero in them -/

theorem append_toNat {m n : Nat} (x : BitVec m) (y : BitVec n) : (x ++ y).toNat = x.toNat * 2 ^ n + y.toNat := by
  rw [BitVec.toNat_append, ← Nat.shiftLeft_add_eq_or_of_lt y.isLt, Nat.shiftLeft_eq]

/-- Format I8 as a number: the opcode's hexadecimal digit, a zero digit, and the immediate (R80). -/
theorem ofNat_eq_packImm (op : BitVec 4) (imm8 : BitVec 8) :
    BitVec.ofNat 16 (op.toNat * 0x1000 + imm8.toNat) = packImm op imm8 := by
  apply BitVec.eq_of_toNat_eq
  rw [packImm, append_toNat, append_toNat, BitVec.toNat_ofNat, BitVec.toNat_ofNat]
  omega

/-- Format J6 as a number: the opcode's hexadecimal digit, six zero bits, and the target (R80). -/
theorem ofNat_eq_packTgt (op : BitVec 4) (tgt6 : BitVec 6) :
    BitVec.ofNat 16 (op.toNat * 0x1000 + tgt6.toNat) = packTgt op tgt6 := by
  apply BitVec.eq_of_toNat_eq
  rw [packTgt, append_toNat, append_toNat, BitVec.toNat_ofNat, BitVec.toNat_ofNat]
  omega

/-- Bits 11:8 of CSWAP, SETI and SETR must be zero (R91). -/
theorem decodeMicro_of_rd_ne_zero (hop : wordOp w = 0x5 ∨ wordOp w = 0x6 ∨ wordOp w = 0x7) (hrd : wordRd w ≠ 0) :
    decodeMicro w = .error .nonzeroField := by
  obtain hop | hop | hop := hop <;> simp [decodeMicro, accept, hop, hrd]

theorem wordRd_ne_zero_of_digit (h : w.toNat / 0x100 % 0x10 ≠ 0) : wordRd w ≠ 0 := fun hz =>
  h ((digit_eq_wordRd w).trans (congrArg Fin.val hz))

/-- Bits 11:6 of LOOPI and LOOPR must be zero (R91). -/
theorem decodeMicro_of_mid_ne_zero (hop : wordOp w = 0x8 ∨ wordOp w = 0x9) (hmid : w.extractLsb' 6 6 ≠ 0#6) :
    decodeMicro w = .error .nonzeroField := by
  obtain hop | hop := hop <;> simp [decodeMicro, accept, hop, hmid]

theorem mid_ne_zero_of_digits (h : w.toNat / 0x40 % 0x40 ≠ 0) : w.extractLsb' 6 6 ≠ 0#6 := fun hz => by
  have hval := congrArg BitVec.toNat hz
  rw [BitVec.extractLsb'_toNat, Nat.shiftRight_eq_div_pow] at hval
  exact h hval

/-! CSWAP -/

/-- The scalar's bit n is bit n of LE(IBUF) (R8, R140). -/
theorem kbit_eq_testBit (s : State) (n : BitVec 8) : s.kbit n = (leValue s.ibuf).testBit n.toNat :=
  (leValue_testBit s.ibuf n.toNat (by have := n.isLt; omega)).symm

/-- Under a mask of 255 copies of a bit, the blend is a choice by that bit (R151). -/
theorem blend_swapMask (bit : Bool) (x y : Fe) : blend (swapMask bit) x y = if bit then y else x := by
  cases bit
  · exact blend_mask_false x y
  · exact blend_mask_true x y

/-- CSWAP on writable registers writes both, from the old values of both (R151). -/
theorem execCswap_of_writable (ha : 4 ≤ ra.val) (hb : 4 ≤ rb.val) :
    execCswap ra rb s =
      .next ((s.writeField ra (if s.kbit s.bitidx then s.readField rb else s.readField ra)).writeField rb
        (if s.kbit s.bitidx then s.readField ra else s.readField rb)).advance := by
  have hwf : (Reg.writable ra && Reg.writable rb) = true := by simp [ha, hb]
  rw [execCswap, if_pos hwf, State.swapMask, blend_swapMask, blend_swapMask]

/-- The first of two writes still reads back: the second is to another register, or is the same value again. -/
theorem readField_writeField_writeField (s : State) {x y : Fe} (ha : 4 ≤ ra.val) (h : ra = rb → x = y) :
    ((s.writeField ra x).writeField rb y).readField ra = x := by
  by_cases hab : ra = rb
  · subst hab
    rw [readField_writeField_self _ _ _ ha, h rfl]
  · rw [readField_writeField_of_ne _ _ _ _ hab, readField_writeField_self _ _ _ ha]

/-- Settles O13: under the bit the two writes exchange the registers, and with `ra = rb` they write one value. -/
theorem cswapSwapsUnderScalarBit : Obligations.CswapSwapsUnderScalarBit := by
  unfold Obligations.CswapSwapsUnderScalarBit
  intro ra rb s
  have hpack (d : Reg) : hexWord 0x5 d ra rb = packRegs 0x5 d ra rb := hexWord_eq_packRegs 0x5 d ra rb
  refine ⟨fun ha hb => ?legal, fun d hd => ?nonzero, fun hconst => ?constant⟩
  case legal =>
    have hwf : (Instr.cswap ra rb).WellFormed := by simp [Instr.WellFormed, Instr.wellFormed, ha, hb]
    rw [← kbit_eq_testBit]
    refine ⟨decodeMicro_of_encode hwf (congrArg Code.word (hpack 0).symm), _, execCswap_of_writable ha hb, rfl, ?_,
      readField_writeField_self _ rb _ hb, fun r hra hrb => ?_, rfl, fun _ => rfl⟩
    · exact readField_writeField_writeField s ha fun hab => by rw [hab]
    · exact (readField_writeField_of_ne _ rb r _ hrb).trans (readField_writeField_of_ne s ra r _ hra)
  case nonzero =>
    rw [hpack]
    exact decodeMicro_of_rd_ne_zero (.inl (by simp)) (by simpa using hd)
  case constant =>
    have hwf : ¬ (Instr.cswap ra rb).WellFormed := by
      simp only [Instr.WellFormed, Instr.wellFormed, Bool.and_eq_true, writable_eq_true]
      omega
    exact ⟨decodeMicro_of_encode_of_not_wellFormed hwf (congrArg Code.word (hpack 0).symm),
      exec_of_not_wellFormed hwf⟩

/-! SETI and SETR -/

/-- Settles O14: the words are of format I8, and each term loads its counter and advances. -/
theorem setiAndSetrLoadCounters : Obligations.SetiAndSetrLoadCounters := by
  unfold Obligations.SetiAndSetrLoadCounters
  intro v s
  refine ⟨?setiWord, rfl, fun w hop hd => ?setiIllegal, ?setrWord, rfl, fun w hop hd => ?setrIllegal⟩
  case setiWord => exact decodeMicro_of_encode rfl (congrArg Code.word (ofNat_eq_packImm 0x6 v).symm)
  case setrWord => exact decodeMicro_of_encode rfl (congrArg Code.word (ofNat_eq_packImm 0x7 v).symm)
  case setiIllegal =>
    exact decodeMicro_of_rd_ne_zero (.inr (.inl (wordOp_eq_of_digit hop))) (wordRd_ne_zero_of_digit hd)
  case setrIllegal =>
    exact decodeMicro_of_rd_ne_zero (.inr (.inr (wordOp_eq_of_digit hop))) (wordRd_ne_zero_of_digit hd)

/-! LOOPI -/

/-- A loop counter that is not 0 does not wrap (R153, R168). -/
theorem toNat_sub_one_add_one {c : BitVec 8} (h : c ≠ 0) : (c - 1).toNat + 1 = c.toNat := by
  bv_omega

theorem execLoopi_of_ne_zero (tgt6 : BitVec 6) (h : s.bitidx ≠ 0) :
    execLoopi tgt6 s = .next ({ s with bitidx := s.bitidx - 1 }.jump tgt6) := if_pos h

theorem execLoopi_of_eq_zero (tgt6 : BitVec 6) (h : s.bitidx = 0) : execLoopi tgt6 s = .next s.advance :=
  if_neg (not_not_intro h)

/-- Settles O15: LOOPI tests `bitidx`, and either decrements it and jumps or advances. -/
theorem loopiCountsBitIndexDown : Obligations.LoopiCountsBitIndexDown := by
  unfold Obligations.LoopiCountsBitIndexDown
  intro tgt s
  refine ⟨?word, fun hne => ?taken, execLoopi_of_eq_zero tgt, fun w hop hmid => ?illegal⟩
  case word => exact decodeMicro_of_encode rfl (congrArg Code.word (ofNat_eq_packTgt 0x8 tgt).symm)
  case taken => exact ⟨_, execLoopi_of_ne_zero tgt hne, toNat_sub_one_add_one hne, rfl, rfl⟩
  case illegal => exact decodeMicro_of_mid_ne_zero (.inl (wordOp_eq_of_digit hop)) (mid_ne_zero_of_digits hmid)

/-! Bit 255 of the scalar -/

/-- n iterations read the bits below n alone (R143). -/
theorem ladderFrom_congr (m : DblMode) {k l n : Nat} (h : ∀ i < n, k.testBit i = l.testBit i) (q : Points) :
    ladderFrom m k n q = ladderFrom m l n q := by
  induction n generalizing q with
  | zero => rfl
  | succ n ih =>
    rw [ladderFrom, ladderFrom, h n (Nat.lt_succ_self n)]
    exact ih (fun i hi => h i (Nat.lt_succ_of_lt hi)) _

/-- The ladder reads bits 254 .. 0 of the scalar (R140, R150). -/
theorem ladder_congr (m : DblMode) {b c : Vector Byte 32}
    (h : ∀ i < 255, (leValue b).testBit i = (leValue c).testBit i) : ladder m b = ladder m c := by
  simp only [ladder, ladderFrom_congr m h]

/-- Bit 7 of byte 31 is bit 255 of the integer, so flipping it leaves every lower bit (R8, R140). -/
theorem leValue_testBit_flipTop (b : Vector Byte 32) {i : Nat} (hi : i < 255) :
    (leValue (b.set 31 (b[31] ^^^ 0x80))).testBit i = (leValue b).testBit i := by
  rw [leValue_testBit _ i (by omega), leValue_testBit b i (by omega), Vector.getElem_set]
  split
  next hbyte =>
    have hbit : (0x80 : Byte).getLsbD (i % 8) = false := by
      have hlt : i % 8 < 7 := by omega
      interval_cases i % 8 <;> rfl
    simp only [BitVec.getLsbD_xor, hbit, Bool.xor_false, hbyte]
  next => rfl

/-- Settles O51: the two scalars agree in every bit the ladder reads, and MulBase is a function of the ladder. -/
theorem ladderIgnoresBit255 : Obligations.LadderIgnoresBit255 := by
  unfold Obligations.LadderIgnoresBit255
  intro m b
  have h : ladder m (b.set 31 (b[31] ^^^ 0x80)) = ladder m b :=
    ladder_congr m fun _ => leValue_testBit_flipTop b
  exact ⟨h, by rw [mulBase, mulBase, h]⟩

end Sys2Proof.Proofs
end

section
/-! PROOFS. The micro-operations of the inversion and the affine conversion, LOOPR and ENC (43_inversion_affine.md):
their words (R80, R83, R91) and their effects (R168, R169). Then the top bit of the result, which stays 0 (R38,
R165). -/

namespace Sys2Proof.Proofs

open Sys2Proof.Machine Sys2Proof.Laws

variable {s t : State} {i : Instr}

/-! LOOPR -/

theorem execLoopr_of_ne_zero (tgt6 : BitVec 6) (h : s.rep ≠ 0) :
    execLoopr tgt6 s = .next ({ s with rep := s.rep - 1 }.jump tgt6) := if_pos h

theorem execLoopr_of_eq_zero (tgt6 : BitVec 6) (h : s.rep = 0) : execLoopr tgt6 s = .next s.advance :=
  if_neg (not_not_intro h)

/-- Settles O16: LOOPR tests `rep`, and either decrements it and jumps or advances. -/
theorem looprCountsRepeatDown : Obligations.LooprCountsRepeatDown := by
  unfold Obligations.LooprCountsRepeatDown
  intro tgt s
  refine ⟨?word, fun hne => ?taken, execLoopr_of_eq_zero tgt, fun w hop hmid => ?illegal⟩
  case word => exact decodeMicro_of_encode rfl (congrArg Code.word (ofNat_eq_packTgt 0x9 tgt).symm)
  case taken => exact ⟨_, execLoopr_of_ne_zero tgt hne, toNat_sub_one_add_one hne, rfl, rfl⟩
  case illegal => exact decodeMicro_of_mid_ne_zero (.inr (wordOp_eq_of_digit hop)) (mid_ne_zero_of_digits hmid)

/-! ENC -/

/-- Bits 11:8 and 3:0 of ENC must be zero (R91). -/
theorem decodeMicro_enc_of_ne_zero {rd ra rb : Reg} (h : rd ≠ 0 ∨ rb ≠ 0) :
    decodeMicro (packRegs 0xA rd ra rb) = .error .nonzeroField := by
  obtain h | h := h <;> simp [decodeMicro, accept, h]

/-- R8: byte i of LE32(v) is digit i of v to the base 256. -/
theorem le32_getElem_toNat (v i : Nat) (h : i < 32) : (le32 v)[i].toNat = v / 2 ^ (8 * i) % 256 := by
  rw [le32_getElem v i h, BitVec.toNat_ofNat, Nat.shiftRight_eq_div_pow]

/-- A field element is below 2^255, so bit 255 of its encoding is clear (R165). -/
theorem le32_fe_topBit (a : Fe) : (le32 a.val)[31].getLsbD 7 = false :=
  (le32_getLsbD a.val 31 7 (by decide) (by decide)).trans (Nat.testBit_lt_two_pow (fe_lt_two_pow a))

theorem leValue_le32_fe (a : Fe) : leValue (le32 a.val) = a.val :=
  leValue_le32 ((fe_lt_two_pow a).trans (by norm_num))

/-- A byte of the window outside OBUF reads as before a change of OBUF (R62). -/
theorem windowRead_setObuf (s : State) (obuf : Vector Byte 32) {off : Nat} (h : ¬ (0x40 ≤ off ∧ off ≤ 0x5F)) :
    { s with obuf := obuf }.windowRead off = s.windowRead off := by
  have hst : { s with obuf := obuf }.statusByte = s.statusByte := rfl
  simp only [State.windowRead, h, dite_false, hst]

/-- Settles O17: ENC is LE32 of the register put in OBUF, followed by the advance of `upc`. -/
theorem encWritesLittleEndianBytes : Obligations.EncWritesLittleEndianBytes := by
  unfold Obligations.EncWritesLittleEndianBytes
  intro ra s
  have hpack (d b : Reg) : hexWord 0xA d ra b = packRegs 0xA d ra b := hexWord_eq_packRegs 0xA d ra b
  refine ⟨?word, fun d b hne => ?illegal, _, rfl, le32_getElem_toNat (s.readField ra).val,
    leValue_le32_fe (s.readField ra), le32_fe_topBit (s.readField ra), rfl, fun off hoff => ?window⟩
  case word => exact decodeMicro_of_encode rfl (congrArg Code.word (hpack 0 0).symm)
  case illegal => rw [hpack, decodeMicro_enc_of_ne_zero hne]
  case window => rw [windowRead_advance, windowRead_setObuf s _ hoff]

/-! The top bit of the result -/

theorem resultInv_of_obuf_eq (h : ResultInv s) (ho : t.obuf = s.obuf) : ResultInv t := by
  rw [ResultInv, ho]
  exact h

theorem resultInv_of_obuf_eq_zero (ho : s.obuf = Vector.replicate 32 0x00) : ResultInv s := by
  rw [ResultInv, ho, Vector.getElem_replicate]
  rfl

theorem MicroEffect.resultInv (hm : MicroEffect s i t) (h : ResultInv s) : ResultInv t := by
  cases hm with
  | encode ra => exact le32_fe_topBit (s.readField ra)
  | fields | control | clamp | halt | microFault => exact h

/-- Settles O43: a step leaves OBUF alone, zeroes it, or runs a micro-operation, of which ENC alone writes it. -/
theorem resultTopBitStaysClear : Obligations.ResultTopBitStaysClear := by
  unfold Obligations.ResultTopBitStaysClear
  intro s t h hstep
  have hturn : ResultInv (takeTurn s) := h
  cases stepEffect_of_step hstep with
  | idle | illegalWord | read | ignored | dropCommand | illegalCommand => exact h
  | push => exact resultInv_of_obuf_eq hturn (pushByte_obuf _ _)
  | mulbase | clamp => exact resultInv_of_obuf_eq hturn (startProgram_obuf _ _)
  | clear => exact resultInv_of_obuf_eq_zero (clearAll_obuf _)
  | reset => exact resultInv_of_obuf_eq_zero (resetEvent_obuf _)
  | micro hi hx => exact (microEffect_of_microNext hi hx).resultInv hturn

end Sys2Proof.Proofs
end

section
/-! PROOFS. The inversion and the affine conversion as functions (R160 to R164): the chain is followed by the exponent
of z its value is, and Fermat's little theorem makes z^(p-2) the inverse. Then the all-zero scalar, whose ladder never
swaps (R170). -/

namespace Sys2Proof.Proofs

open Sys2Proof.Machine Sys2Proof.Laws

variable {z r : Fe} {e f n : Nat}

/-! The chain, by exponents -/

@[simp] theorem residue_feSqr (a : Fe) : residue (feSqr a) = residue a * residue a := residue_feMul a a

theorem residue_eq_zero_iff {a : Fe} : residue a = 0 ↔ a = toFe 0 := by
  have hzero : residue (toFe 0) = 0 := (residue_toFe 0).trans Nat.cast_zero
  rw [← hzero, residue_injective.eq_iff]

/-- Squaring doubles the exponent. -/
theorem residue_feSqr_of_pow (h : residue r = residue z ^ e) (hf : f = 2 * e) :
    residue (feSqr r) = residue z ^ f := by
  rw [residue_feSqr, h, hf, two_mul, pow_add]

/-- A round of `r = r²; r = r · z` makes the exponent e into 2·e + 1, and so doubles e + 1 (R162). -/
theorem residue_squareMultiply_of_pow (h : residue r = residue z ^ e) (hf : f + 1 = 2 ^ n * (e + 1)) :
    residue (squareMultiply z n r) = residue z ^ f := by
  induction n generalizing r e with
  | zero =>
    obtain rfl : f = e := by simpa using hf
    exact h
  | succ n ih =>
    refine ih (e := 2 * e + 1) ?_ (by rw [hf]; ring)
    rw [residue_feMul, residue_feSqr_of_pow h rfl, pow_succ]

theorem fieldPrime_sub_two : fieldPrime - 2 = 2 ^ 255 - 21 := by norm_num

/-- The exponents after the five parts of the chain; the last is p − 2 (R160, R161). -/
theorem residue_fieldInv (z : Fe) : residue (fieldInv z) = residue z ^ (fieldPrime - 2) := by
  have h₀ : residue z = residue z ^ 1 := (pow_one _).symm
  have h₁ := residue_squareMultiply_of_pow (n := 249) (f := 2 ^ 250 - 1) h₀ (by norm_num)
  have h₂ := residue_feSqr_of_pow (f := 2 ^ 251 - 2) h₁ (by norm_num)
  have h₃ := residue_squareMultiply_of_pow (n := 1) (f := 2 ^ 252 - 3) h₂ (by norm_num)
  have h₄ := residue_feSqr_of_pow (f := 2 ^ 253 - 6) h₃ (by norm_num)
  exact residue_squareMultiply_of_pow (n := 2) h₄ (by norm_num)

theorem fieldInv_eq_toFe (z : Fe) : fieldInv z = toFe (z.val ^ (fieldPrime - 2)) :=
  residue_injective <| (residue_fieldInv z).trans <|
    (Nat.cast_pow z.val (fieldPrime - 2)).symm.trans (residue_toFe _).symm

/-- Fermat's little theorem: z · z^(p−2) = z^(p−1) = 1 (R160). -/
theorem feMul_fieldInv (hz : z ≠ toFe 0) : feMul z (fieldInv z) = toFe 1 := by
  have hp : Fact (Nat.Prime fieldPrime) := ⟨fieldPrime_prime⟩
  apply residue_injective
  calc residue (feMul z (fieldInv z))
    _ = residue z * residue z ^ (fieldPrime - 2) := by rw [residue_feMul, residue_fieldInv]
    _ = residue z ^ (fieldPrime - 1) := (pow_succ' (residue z) (fieldPrime - 2)).symm
    _ = 1 := ZMod.pow_card_sub_one_eq_one (mt residue_eq_zero_iff.1 hz)
    _ = residue (toFe 1) := ((residue_toFe 1).trans Nat.cast_one).symm

theorem fieldInv_zero : fieldInv (toFe 0) = toFe 0 := by
  rw [← residue_eq_zero_iff, residue_fieldInv, residue_eq_zero_iff.2 rfl, zero_pow (by norm_num)]

/-- Settles O49: the exponent of the chain is p − 2, the inverse is Fermat's, and 0 has the power 0. -/
theorem inversionChainComputesInverse : Obligations.InversionChainComputesInverse := by
  unfold Obligations.InversionChainComputesInverse
  exact ⟨fieldPrime_sub_two, fun z => congrArg Fin.val (fieldInv_eq_toFe z),
    fun z hz => congrArg Fin.val (feMul_fieldInv hz), fieldInv_zero⟩

/-! The affine conversion -/

@[simp] theorem feMul_zero (x : Fe) : feMul x (toFe 0) = toFe 0 := Fin.ext (by simp)

@[simp] theorem zero_feMul (x : Fe) : feMul (toFe 0) x = toFe 0 := Fin.ext (by simp)

/-- For z = 0 the product is x · 0, which is the value the test would give (R164). -/
theorem affine_eq_feMul (x z : Fe) : affine x z = feMul x (fieldInv z) := by
  by_cases hz : z = toFe 0
  · rw [affine, if_neg (not_not_intro hz), hz, fieldInv_zero, feMul_zero]
  · exact if_pos hz

/-- Settles O50: `affine_eq_feMul`, and the chain's value as a power. -/
theorem affineNeedsNoZeroTest : Obligations.AffineNeedsNoZeroTest := by
  unfold Obligations.AffineNeedsNoZeroTest
  refine fun x z => ⟨affine_eq_feMul x z, ?_⟩
  rw [affine_eq_feMul, feMul_val, fieldInv_eq_toFe, toFe_val, Nat.mul_mod_mod]

/-! The all-zero scalar -/

section
variable (m : DblMode) (q : Points)

/-- The doubling reads the accumulator point alone (R146, R147). -/
theorem step_x2 : (q.step m).x2 = (doubling m (feAdd q.x2 q.z2) (feSub q.x2 q.z2)).1 := rfl

theorem step_z2 : (q.step m).z2 = (doubling m (feAdd q.x2 q.z2) (feSub q.x2 q.z2)).2 := rfl

end

/-- With every bit of the scalar 0 the ladder never swaps, so what each step keeps holds at the end (R143, R144). -/
theorem ladderFrom_zero_induction {P : Points → Prop} {m : DblMode} (hstep : ∀ q, P q → P (q.step m)) (n : Nat)
    {q : Points} (hq : P q) : P (ladderFrom m 0 n q) := by
  induction n generalizing q with
  | zero => exact hq
  | succ n ih =>
    rw [ladderFrom, Nat.zero_testBit]
    exact ih (hstep q hq)

theorem leValue_zero : leValue (Vector.replicate 32 0) = 0 := by decide

theorem ladder_zero (m : DblMode) :
    ladder m (Vector.replicate 32 0) = ((ladderFrom m 0 255 .initial).x2, (ladderFrom m 0 255 .initial).z2) := by
  rw [ladder, leValue_zero]

/-- RFC doubles (1, 0) to (1, 0). -/
theorem step_rfc_keeps_one_zero (q : Points) (h : q.x2 = toFe 1 ∧ q.z2 = toFe 0) :
    (q.step .rfc).x2 = toFe 1 ∧ (q.step .rfc).z2 = toFe 0 := by
  obtain ⟨hx, hz⟩ := h
  rw [step_x2, step_z2, hx, hz]
  decide

theorem ladder_rfc_zero : ladder .rfc (Vector.replicate 32 0) = (toFe 1, toFe 0) := by
  obtain ⟨hx, hz⟩ := ladderFrom_zero_induction step_rfc_keeps_one_zero 255 (q := .initial) ⟨rfl, rfl⟩
  rw [ladder_zero, hx, hz]

/-- DOC takes (0, c) to (c² − (−c)², −4·c²) (R147). -/
theorem doubling_doc_zero (c : Fe) :
    doubling .doc (feAdd (toFe 0) c) (feSub (toFe 0) c) =
      (toFe 0, feMul (feSub (toFe 0) (toFe 4)) (feMul c c)) := by
  refine Prod.ext (residue_injective ?_) (residue_injective ?_) <;>
  · simp only [doubling, residue_feAdd, residue_feMul, residue_feSub, residue_feSqr, residue_toFe, Nat.cast_zero,
      Nat.cast_ofNat]
    ring

/-- DOC keeps x2 = 0 and z2 ≠ 0: modulo a prime, −4·c² is 0 for c = 0 alone. -/
theorem step_doc_keeps_zero_ne (q : Points) (h : q.x2 = toFe 0 ∧ q.z2 ≠ toFe 0) :
    (q.step .doc).x2 = toFe 0 ∧ (q.step .doc).z2 ≠ toFe 0 := by
  obtain ⟨hx, hz⟩ := h
  rw [step_x2, step_z2, hx, doubling_doc_zero]
  refine ⟨rfl, fun h0 => ?_⟩
  obtain h4 | hsq := eq_zero_or_eq_zero_of_feMul_eq_zero h0
  · exact absurd h4 (by decide)
  · exact (eq_zero_or_eq_zero_of_feMul_eq_zero hsq).elim hz hz

/-- The first iteration takes (1, 0) to (0, 4), and the others keep x2 = 0 and z2 ≠ 0. -/
theorem ladder_doc_zero :
    (ladder .doc (Vector.replicate 32 0)).1 = toFe 0 ∧ (ladder .doc (Vector.replicate 32 0)).2 ≠ toFe 0 := by
  have hfirst : (Points.initial.step .doc).x2 = toFe 0 ∧ (Points.initial.step .doc).z2 ≠ toFe 0 := by decide
  rw [ladder_zero, ladderFrom, Nat.zero_testBit]
  exact ladderFrom_zero_induction step_doc_keeps_zero_ne 254 hfirst

theorem le32_zero : le32 0 = Vector.replicate 32 0 := leValue_zero ▸ le32_leValue _

/-- Settles O52: under RFC z2 = 0, under DOC x2 = 0, and either makes the affine value 0. -/
theorem zeroScalarGivesZeroBytes : Obligations.ZeroScalarGivesZeroBytes := by
  unfold Obligations.ZeroScalarGivesZeroBytes
  refine ⟨fun m => ?bytes, ladder_rfc_zero, ladder_doc_zero⟩
  case bytes =>
    have haffine : affine (ladder m (Vector.replicate 32 0)).1 (ladder m (Vector.replicate 32 0)).2 = toFe 0 := by
      cases m with
      | rfc => rw [ladder_rfc_zero, affine_eq_feMul, fieldInv_zero, feMul_zero]
      | doc =>
        obtain ⟨hx, -⟩ := ladder_doc_zero
        rw [hx, affine_eq_feMul, zero_feMul]
    rw [mulBase, haffine]
    exact le32_zero

end Sys2Proof.Proofs
end

section
/-! PROOFS. The sequencer and the host commands (44_sequencer_and_commands.md): what a turn of the sequencer and a
command byte run (R180, R182), HALT (R181), CLR and the two commands that start a program (R183, R184, R185), the
`DIN` push and a list of pushes (R186), overruns (R189, R240), and where control goes after a micro-operation
(R190). -/

namespace Sys2Proof.Proofs

open Sys2Proof.Machine Sys2Proof.Laws

variable {s t : State} {i : Instr} {w : Word}

/-! A turn of the sequencer -/

theorem step_of_nil (h : s.turns = []) : step s = sequencerTurn s := by
  simp only [step, h]

theorem step_of_sequencer {rest : List Turn} (h : s.turns = .sequencer :: rest) :
    step s = sequencerTurn { s with turns := rest } := by
  simp only [step, h]

theorem sequencerTurn_of_decode_ok (hb : s.busy = true) (hi : decodeMicro s.fetch = .ok i) :
    sequencerTurn s = exec i s := by
  simp [sequencerTurn, microStep, hb, hi]

theorem sequencerTurn_of_idle (hb : s.busy = false) : sequencerTurn s = .next s := by
  simp [sequencerTurn, hb]

/-- Settles O30: the sequencer's turn, and what it does by `BUSY` and the word at `upc`; taking the turn from the list
changes neither. -/
theorem microStepRunsTheDecodedWord : Obligations.MicroStepRunsTheDecodedWord := by
  unfold Obligations.MicroStepRunsTheDecodedWord
  refine fun s rest => ⟨fun i hb hi => ⟨fun hs => ?_, fun hs => ?_⟩,
    fun e hb he => ⟨fun hs => ?_, fun hs => ?_⟩, fun hb => ⟨fun hs => ?_, fun hs => ?_⟩⟩
  · rw [step_of_nil hs, sequencerTurn_of_decode_ok hb hi]
  · rw [step_of_sequencer hs, sequencerTurn_of_decode_ok (s := { s with turns := rest }) hb hi]
  · rw [step_of_nil hs, sequencerTurn_of_decode_error hb he]
  · rw [step_of_sequencer hs, sequencerTurn_of_decode_error (s := { s with turns := rest }) hb he]
  · rw [step_of_nil hs, sequencerTurn_of_idle hb]
  · rw [step_of_sequencer hs, sequencerTurn_of_idle (s := { s with turns := rest }) hb]

/-! A host write's turn -/

/-- A one-byte write inside the window is carried out after its turn is taken (R63, R69). -/
theorem step_of_writeNext {off : Nat} {v : Byte} (h : WriteNext off v s) (hoff : off ≤ 0x7F) :
    step s = windowWrite off v (takeTurn s) := by
  obtain ⟨rest, hs⟩ := h
  rw [step_of_host hs, hostAccess_write v _ hoff, takeTurn_of_cons hs]

theorem commandWrite_of_decode_ok {v : Byte} (h : decodeCommand v = .ok i) : commandWrite v s = exec i s := by
  simp only [commandWrite, h]

/-- Settles O31: the turn is a write of `CMD`, whose byte decodes to the command. -/
theorem commandStepRunsTheDecodedByte : Obligations.CommandStepRunsTheDecodedByte := by
  unfold Obligations.CommandStepRunsTheDecodedByte
  intro s v i rest hi hs
  rw [step_of_writeNext ⟨rest, hs⟩ (by decide), takeTurn_of_cons hs]
  exact commandWrite_of_decode_ok hi

/-! HALT -/

/-- 0xC000 is the one word of opcode 0xC with bits 11:0 zero (R83, R90). -/
theorem decodeMicro_eq_nonzeroField_of_ne_halt (hop : wordOp w = 0xC) (hw : w ≠ 0xC000) :
    decodeMicro w = .error .nonzeroField := by
  have hlow : w.extractLsb' 0 12 ≠ 0#12 := fun hz => hw (packNone_of_fields hop hz).symm
  simp [decodeMicro, hop, accept, hlow]

/-- Settles O19: HALT sets its two flags (R181), and its word is the opcode followed by zeros. -/
theorem haltEndsTheMicroprogram : Obligations.HaltEndsTheMicroprogram := by
  unfold Obligations.HaltEndsTheMicroprogram
  exact ⟨rfl, fun w hop hw => decodeMicro_eq_nonzeroField_of_ne_halt (wordOp_eq_of_digit (op := 0xC) hop) hw,
    fun _ => rfl⟩

/-! The commands CLR, MULBASE and CLAMP -/

/-- An accepted CLR leaves every status item zero (R34, R183). -/
theorem statusByte_clearAll_acceptCommand (hb : s.busy = false) : s.acceptCommand.clearAll.statusByte = 0 := by
  simp [State.statusByte, hb]

/-- Settles O20: CLR is accepted or dropped as every command is; an accepted one zeroes all that the window reads. -/
theorem clrClearsBuffersAndStatus : Obligations.ClrClearsBuffersAndStatus := by
  unfold Obligations.ClrClearsBuffersAndStatus
  refine fun s => ⟨fun hb => ⟨s.acceptCommand.clearAll, hostCommand_of_idle hb _, fun off => ?window,
    fun r hr => ?constants, rfl⟩, fun hb => hostCommand_of_busy hb _⟩
  case window => exact windowRead_eq_zero (statusByte_clearAll_acceptCommand hb) rfl rfl rfl off
  case constants => rw [readField_of_constant _ r hr, readField_of_constant _ r hr]

theorem startProgram_of_ilen_eq (entry : BitVec 6) (h : s.ilen = 32) :
    s.startProgram entry = { s with busy := true, upc := entry } := if_pos h

theorem startProgram_of_ilen_ne (entry : BitVec 6) (h : s.ilen ≠ 32) :
    s.startProgram entry = s.raiseError .invalidScalarLength := if_neg h

/-- With 32 bytes in the buffer an accepted MULBASE or CLAMP starts its program (R182, R184, R185). -/
theorem hostCommand_startProgram (entry : BitVec 6) (hb : s.busy = false) (hl : s.ilen = 32) :
    s.hostCommand (fun u => u.startProgram entry) =
      .next { s with done := false, err := false, errcode := 0, busy := true, upc := entry } := by
  rw [hostCommand_of_idle hb, startProgram_of_ilen_eq (s := s.acceptCommand) entry hl]
  rfl

/-- Settles O21: the two commands differ in their entry alone. -/
theorem commandsStartTheirPrograms : Obligations.CommandsStartTheirPrograms := by
  unfold Obligations.CommandsStartTheirPrograms
  exact fun _ hb hl => ⟨hostCommand_startProgram 0x02 hb hl, hostCommand_startProgram 0x00 hb hl⟩

/-! The `DIN` push -/

/-- A push of an idle block stores and counts, and changes nothing else (R186). -/
theorem pushByte_of_idle (hb : s.busy = false) (v : Byte) :
    s.pushByte v = { s with ibuf := (s.pushByte v).ibuf, ilen := (s.pushByte v).ilen } := by
  obtain ⟨hbusy, -⟩ | ⟨-, ibuf, hx, -⟩ := pushByte_cases s v
  · simp [hb] at hbusy
  · rw [hx]

theorem pushByte_ilen_toNat (hb : s.busy = false) (v : Byte) :
    (s.pushByte v).ilen.toNat = min (s.ilen.toNat + 1) 63 := by
  obtain ⟨hbusy, -⟩ | ⟨-, ibuf, hx, -⟩ := pushByte_cases s v
  · simp [hb] at hbusy
  · rw [hx]
    exact Nat.mod_eq_of_lt (by omega)

/-- A pushed byte lands at the count; with 32 bytes there, no byte of the buffer is at the count (R186). -/
theorem pushByte_ibuf_getElem (hb : s.busy = false) (v : Byte) {j : Nat} (hj : j < 32) :
    (s.pushByte v).ibuf[j] = if j = s.ilen.toNat then v else s.ibuf[j] := by
  obtain ⟨hbusy, -⟩ | ⟨-, ibuf, hx, ⟨hfull, rfl⟩ | ⟨hl, rfl⟩⟩ := pushByte_cases s v
  · simp [hb] at hbusy
  · rw [hx, if_neg (by omega)]
  · rw [hx]
    simp only [Vector.getElem_set, eq_comm]

/-- Settles O25: a write of `DIN` is a push, stored and counted while idle and dropped while busy. -/
theorem dinPushStoresAndCounts : Obligations.DinPushStoresAndCounts := by
  unfold Obligations.DinPushStoresAndCounts
  exact fun v s => ⟨fun hb => ⟨s.pushByte v, rfl, fun _ => pushByte_ibuf_getElem hb v, pushByte_ilen_toNat hb v,
      pushByte_of_idle hb v⟩,
    fun hb => congrArg _ (pushByte_of_busy hb v)⟩

/-! Runs -/

/-- `n` steps of the machine lead from `s` to `t`. -/
def RunsTo (n : Nat) (s t : State) : Prop := Host.Core.run Sys2Proof.core n s = .next t

theorem RunsTo.refl (s : State) : RunsTo 0 s s := rfl

/-- One more step at the front of a run. -/
theorem RunsTo.head {n : Nat} {u : State} (hstep : step s = .next t) (h : RunsTo n t u) : RunsTo (n + 1) s u := by
  have hcore : Sys2Proof.core.step s = .next t := hstep
  simp only [RunsTo, Host.Core.run, hcore]
  exact h

theorem RunsTo.one (h : step s = .next t) : RunsTo 1 s t := .head h (.refl t)

/-- A run of one step or more begins with a step to a state. -/
theorem RunsTo.exists_step {n : Nat} (h : RunsTo (n + 1) s t) : ∃ u, step s = .next u ∧ RunsTo n u t := by
  simp only [RunsTo, Host.Core.run] at h
  split at h
  next u hu => exact ⟨u, hu, h⟩
  all_goals cases h

/-- A run goes on from the state it reached. -/
theorem RunsTo.trans {n k : Nat} {u : State} (h : RunsTo n s t) (hk : RunsTo k t u) : RunsTo (n + k) s u := by
  induction n generalizing s with
  | zero =>
    cases h
    rwa [Nat.zero_add]
  | succ n ih =>
    obtain ⟨v, hstep, hrun⟩ := h.exists_step
    rw [Nat.succ_add]
    exact .head hstep (ih hrun)

/-! A list of pushes -/

/-- A push neither reads nor writes the turns to come. -/
theorem pushByte_setTurns (s : State) (v : Byte) (turns : List Turn) :
    { s.pushByte v with turns := turns } = { s with turns := turns }.pushByte v := by
  unfold State.pushByte
  split <;> rfl

/-- The run of a list of push turns is the pushes, one after the other. -/
theorem runsTo_pushTurns (bs : List Byte) (hs : s.turns = pushTurns bs) :
    RunsTo bs.length s (bs.foldl State.pushByte { s with turns := [] }) := by
  induction bs generalizing s with
  | nil =>
    cases s
    cases hs
    exact .refl _
  | cons v bs ih =>
    have hstep : step s = .next ({ s with turns := pushTurns bs }.pushByte v) := by
      rw [step_of_writeNext ⟨pushTurns bs, hs⟩ (by decide), takeTurn_of_cons hs]
      rfl
    have hturns : ({ s with turns := pushTurns bs }.pushByte v).turns = pushTurns bs := by
      rw [← pushByte_setTurns]
    have hrun := ih hturns
    rw [pushByte_setTurns] at hrun
    exact .head hstep hrun

theorem pushByte_busy (s : State) (v : Byte) : (s.pushByte v).busy = s.busy := by
  unfold State.pushByte
  split <;> rfl

section
variable (bs : List Byte)

theorem foldl_pushByte_frame (hb : s.busy = false) :
    bs.foldl State.pushByte s =
      { s with ibuf := (bs.foldl State.pushByte s).ibuf, ilen := (bs.foldl State.pushByte s).ilen } := by
  induction bs generalizing s with
  | nil => rfl
  | cons v bs ih =>
    rw [List.foldl_cons, ih ((pushByte_busy s v).trans hb), pushByte_of_idle hb]

theorem foldl_pushByte_ilen_toNat (hb : s.busy = false) :
    (bs.foldl State.pushByte s).ilen.toNat = min (s.ilen.toNat + bs.length) 63 := by
  induction bs generalizing s with
  | nil =>
    have hlt := s.ilen.isLt
    exact (min_eq_left (by omega)).symm
  | cons v bs ih =>
    rw [List.foldl_cons, ih ((pushByte_busy s v).trans hb), pushByte_ilen_toNat hb, List.length_cons]
    omega

/-- The bytes pushed go to the places from the count on, in their order. -/
theorem foldl_pushByte_ibuf_getElem (hb : s.busy = false) {j : Nat} (hj : j < 32) :
    (bs.foldl State.pushByte s).ibuf[j] =
      if s.ilen.toNat ≤ j then bs.getD (j - s.ilen.toNat) s.ibuf[j] else s.ibuf[j] := by
  induction bs generalizing s with
  | nil => simp
  | cons v bs ih =>
    rw [List.foldl_cons, ih ((pushByte_busy s v).trans hb), pushByte_ilen_toNat hb, pushByte_ibuf_getElem hb v hj]
    obtain hlt | rfl | hgt := Nat.lt_trichotomy s.ilen.toNat j
    · have hsub : j - s.ilen.toNat = (j - (s.ilen.toNat + 1)) + 1 := by omega
      have hmin : min (s.ilen.toNat + 1) 63 = s.ilen.toNat + 1 := by omega
      simp [hmin, hsub, hlt, hlt.le, hlt.ne']
    · have hmin : ¬ min (s.ilen.toNat + 1) 63 ≤ s.ilen.toNat := by omega
      simp [hmin]
    · have hmin : ¬ min (s.ilen.toNat + 1) 63 ≤ j := by omega
      simp [hmin, hgt.not_ge, hgt.ne]

end

/-- Settles O26: the run is the list of pushes, which starts at place 0. -/
theorem pushedBytesFillTheBuffer : Obligations.PushedBytesFillTheBuffer := by
  unfold Obligations.PushedBytesFillTheBuffer
  intro bs s hb hl hs
  have hzero : s.ilen.toNat = 0 := by rw [hl]; rfl
  refine ⟨_, runsTo_pushTurns bs hs, ?count, fun j hj => ?bytes, foldl_pushByte_frame bs hb⟩
  case count =>
    have hcount := foldl_pushByte_ilen_toNat (s := { s with turns := [] }) bs hb
    rwa [hzero, Nat.zero_add] at hcount
  case bytes =>
    have hbyte := foldl_pushByte_ibuf_getElem (s := { s with turns := [] }) bs hb hj
    rwa [hzero, if_pos (Nat.zero_le j), Nat.sub_zero] at hbyte

/-! Overruns -/

/-- A `CMD` or `DIN` write while busy sets OVR and changes nothing else (R189). -/
theorem step_of_writeNext_of_busy {v : Byte} (hb : s.busy = true) (h : WriteNext 0x00 v s ∨ WriteNext 0x03 v s) :
    step s = .next (takeTurn s).dropWrite := by
  obtain h | h := h <;> rw [step_of_writeNext h (by decide)]
  · exact commandWrite_of_busy (s := takeTurn s) hb v
  · exact congrArg _ (pushByte_of_busy (s := takeTurn s) hb v)

@[simp] theorem startProgram_ovr (s : State) (entry : BitVec 6) : (s.startProgram entry).ovr = s.ovr := by
  unfold State.startProgram; split <;> rfl

theorem MicroEffect.ovr_eq (hm : MicroEffect s i t) : t.ovr = s.ovr := by
  cases hm <;> rfl

/-- What a step can do to OVR: keep it, set it by a dropped write, or clear it (R189, R240). -/
theorem step_ovr_cases (h : step s = .next t) :
    t.ovr = s.ovr ∨ (t.ovr = true ∧ s.busy = true ∧ ∃ v, WriteNext 0x00 v s ∨ WriteNext 0x03 v s) ∨
    (t.ovr = false ∧ ((WriteNext 0x00 0x00 s ∧ s.busy = false) ∨ ResetNext s)) := by
  cases stepEffect_of_step h with
  | idle | illegalWord | read | ignored | illegalCommand => exact .inl rfl
  | mulbase | clamp => exact .inl (startProgram_ovr _ _)
  | micro hi hx => exact .inl (microEffect_of_microNext hi hx).ovr_eq
  | @push v hw =>
    obtain ⟨hb, hx⟩ | ⟨-, _, hx, -⟩ := pushByte_cases (takeTurn s) v <;> rw [hx]
    · exact .inr (.inl ⟨rfl, hb, v, .inr hw⟩)
    · exact .inl rfl
  | @dropCommand v hw hb => exact .inr (.inl ⟨rfl, hb, v, .inl hw⟩)
  | clear hw hb => exact .inr (.inr ⟨rfl, .inl ⟨hw, hb⟩⟩)
  | reset hr => exact .inr (.inr ⟨rfl, .inr hr⟩)

/-- Settles O40: a dropped write's effect, and then the three things a step can do to OVR. -/
theorem overrunIsStickyAndHarmless : Obligations.OverrunIsStickyAndHarmless := by
  unfold Obligations.OverrunIsStickyAndHarmless
  refine fun s t h => ⟨fun v hb hw => ?effect, fun hs ht => ?set, fun hs ht => ?cleared⟩
  case effect => exact Host.Outcome.next.inj (h.symm.trans (step_of_writeNext_of_busy hb hw))
  all_goals obtain hkeep | ⟨hset, hdrop⟩ | ⟨hclear, hby⟩ := step_ovr_cases h
  case set.inl => simp [hkeep, hs] at ht
  case set.inr.inl => exact hdrop
  case set.inr.inr => simp [hclear] at ht
  case cleared.inl => simp [hkeep, hs] at ht
  case cleared.inr.inl => simp [hset] at ht
  case cleared.inr.inr => exact hby

/-! Control -/

/-- A field micro-operation advances, or its term is ill-formed (R90, R190). -/
theorem fieldResult_upc {rd : Reg} {v : Fe} (hwf : i.wellFormed = Reg.writable rd)
    (h : s.fieldResult rd v = .next t) : t.upc = s.upc + 1 ∨ (t.upc = s.upc ∧ ¬ i.WellFormed) := by
  obtain ⟨-, rfl⟩ | ⟨hrd, rfl⟩ := fieldResult_cases h
  · exact .inl rfl
  · exact .inr ⟨rfl, fun hi => Nat.not_le_of_lt hrd ((writable_eq_true rd).1 (hwf.symm.trans hi))⟩

theorem execCswap_upc {ra rb : Reg} (h : execCswap ra rb s = .next t) :
    t.upc = s.upc + 1 ∨ (t.upc = s.upc ∧ ¬ (Instr.cswap ra rb).WellFormed) := by
  unfold execCswap at h
  split at h <;> cases h
  next => exact .inl rfl
  next hwf => exact .inr ⟨rfl, hwf⟩

theorem execLoopi_upc {tgt : BitVec 6} (h : execLoopi tgt s = .next t) :
    t.upc = s.upc + 1 ∨ (s.bitidx ≠ 0 ∧ t.upc = tgt) := by
  unfold execLoopi at h
  split at h <;> cases h
  next hne => exact .inr ⟨hne, rfl⟩
  next => exact .inl rfl

theorem execLoopr_upc {tgt : BitVec 6} (h : execLoopr tgt s = .next t) :
    t.upc = s.upc + 1 ∨ (s.rep ≠ 0 ∧ t.upc = tgt) := by
  unfold execLoopr at h
  split at h <;> cases h
  next hne => exact .inr ⟨hne, rfl⟩
  next => exact .inl rfl

/-- Settles O35: a field micro-operation and CSWAP advance unless ill-formed, a loop advances or is taken, HALT stays,
and the others advance. -/
theorem onlyLoopsTransferControl : Obligations.OnlyLoopsTransferControl := by
  unfold Obligations.OnlyLoopsTransferControl
  intro i s t hk h
  cases i with
  | fadd | fsub | fmul | fsqr =>
    exact (fieldResult_upc rfl h).imp_right fun ⟨hupc, hwf⟩ => .inl ⟨hupc, .inr hwf⟩
  | cswap => exact (execCswap_upc h).imp_right fun ⟨hupc, hwf⟩ => .inl ⟨hupc, .inr hwf⟩
  | loopi tgt => exact (execLoopi_upc h).imp_right fun ⟨hne, hupc⟩ => .inr (.inl ⟨tgt, rfl, hne, hupc⟩)
  | loopr tgt => exact (execLoopr_upc h).imp_right fun ⟨hne, hupc⟩ => .inr (.inr ⟨tgt, rfl, hne, hupc⟩)
  | seti | setr | enc | clmp => cases h; exact .inl rfl
  | halt => cases h; exact .inr (.inl ⟨rfl, .inl rfl⟩)
  | clr | mulbase | clamp => exact absurd rfl hk

end Sys2Proof.Proofs
end

section
/-! PROOFS. The microprograms (45_microprogram.md): what a straight run of field micro-operations does to the registers,
then CLAMP, and MULBASE part by part along the layout of R210: the ladder's iterations (R143 to R148), the inversion
(R162), the affine conversion and the encoding (R164, R166). -/

namespace Sys2Proof.Proofs

open Sys2Proof.Machine Sys2Proof.Laws

variable {s t : State} {i : Instr} {m : DblMode} {a : BitVec 6}

/-! A running program -/

/-- The micro-operation of word `a` of an image. -/
def wordAt (m : DblMode) (a : BitVec 6) : Except DecodeError Instr := decodeMicro ((romImage m)[a.toNat]'a.isLt)

/-- A command runs from an image, and no step but the sequencer's is to come. -/
def Running (m : DblMode) (s : State) : Prop := s.rom = romImage m ∧ s.turns = [] ∧ s.busy = true

/-- With `upc` at `a`, the step of a running program is that of its word `a` (R180). -/
theorem Running.step_jump (h : Running m s) (hi : wordAt m a = .ok i) : step (s.jump a) = exec i (s.jump a) := by
  obtain ⟨hrom, hturns, hbusy⟩ := h
  rw [step_of_nil (s := s.jump a) hturns]
  refine sequencerTurn_of_decode_ok hbusy ?_
  simpa only [State.fetch, jump_rom, jump_upc, hrom, wordAt] using hi

/-! Field micro-operations -/

/-- What a field micro-operation makes of the registers; `upc` is left. -/
def fieldEffect (s : State) : Instr → State
  | .fadd rd ra rb => s.writeField rd (feAdd (s.readField ra) (s.readField rb))
  | .fsub rd ra rb => s.writeField rd (feSub (s.readField ra) (s.readField rb))
  | .fmul rd ra rb => s.writeField rd (feMul (s.readField ra) (s.readField rb))
  | .fsqr rd ra => s.writeField rd (feSqr (s.readField ra))
  | .cswap ra rb =>
    (s.writeField ra (if s.kbit s.bitidx then s.readField rb else s.readField ra)).writeField rb
      (if s.kbit s.bitidx then s.readField ra else s.readField rb)
  | _ => s

/-- A well-formed field micro-operation is its effect on the registers and the advance of `upc` (R90). -/
theorem exec_of_writesFields (hi : writesFields i = true) (hwf : i.WellFormed) (s : State) :
    exec i s = .next (fieldEffect s i).advance := by
  cases i with
  | fadd | fsub | fmul | fsqr => exact fieldResult_of_writable ((writable_eq_true _).1 hwf) _
  | cswap ra rb =>
    obtain ⟨ha, hb⟩ := Bool.and_eq_true_iff.1 hwf
    exact execCswap_of_writable ((writable_eq_true _).1 ha) ((writable_eq_true _).1 hb)
  | _ => cases hi

theorem fieldEffect_jump (s : State) (a : BitVec 6) (i : Instr) :
    fieldEffect (s.jump a) i = (fieldEffect s i).jump a := by
  cases i <;> rfl

theorem fieldEffect_frame (s : State) (i : Instr) : fieldEffect s i = { s with fregs := (fieldEffect s i).fregs } := by
  cases i <;> rfl

/-- The effect of a straight run of field micro-operations. -/
abbrev blockEffect (s : State) (is : List Instr) : State := is.foldl fieldEffect s

theorem blockEffect_frame (s : State) (is : List Instr) :
    ∃ f, blockEffect s is = { s with fregs := f } := by
  induction is generalizing s with
  | nil => exact ⟨s.fregs, rfl⟩
  | cons i is ih =>
    obtain ⟨f, hf⟩ := ih (fieldEffect s i)
    refine ⟨f, ?_⟩
    rw [blockEffect, List.foldl_cons, ← blockEffect, hf, fieldEffect_frame]

/-- The words of an image from `a` on are these field micro-operations. -/
def blockAt (m : DblMode) : BitVec 6 → List Instr → Bool
  | _, [] => true
  | a, i :: is => (decide (wordAt m a = .ok i) && writesFields i) && blockAt m (a + 1) is

/-- A running program goes through a straight run of field micro-operations. -/
theorem Running.runsTo_block {is : List Instr} (h : Running m s) (hblock : blockAt m a is = true) :
    RunsTo is.length (s.jump a) ((blockEffect s is).jump (a + BitVec.ofNat 6 is.length)) := by
  induction is generalizing s a with
  | nil => simpa using RunsTo.refl (s.jump a)
  | cons i is ih =>
    simp only [blockAt, Bool.and_eq_true, decide_eq_true_eq] at hblock
    obtain ⟨⟨hword, hfield⟩, hrest⟩ := hblock
    obtain ⟨hwf, -⟩ := wellFormed_and_encode_of_decodeMicro hword
    have hstep : step (s.jump a) = .next ((fieldEffect s i).jump (a + 1)) := by
      rw [h.step_jump hword, exec_of_writesFields hfield hwf, fieldEffect_jump]
      rfl
    have hrunning : Running m (fieldEffect s i) := fieldEffect_frame s i ▸ h
    have hupc : a + 1 + BitVec.ofNat 6 is.length = a + BitVec.ofNat 6 (is.length + 1) := by
      bv_omega
    have hrun := RunsTo.head hstep (ih hrunning hrest)
    rwa [hupc] at hrun

/-- The run changes the registers and `upc` alone. -/
theorem Running.exists_runsTo_block {is : List Instr} {b : BitVec 6} (h : Running m s)
    (hblock : blockAt m a is = true) (hend : a + BitVec.ofNat 6 is.length = b) :
    ∃ f, blockEffect s is = { s with fregs := f } ∧
      RunsTo is.length (s.jump a) ({ s with fregs := f }.jump b) := by
  obtain ⟨f, hf⟩ := blockEffect_frame s is
  exact ⟨f, hf, hf ▸ hend ▸ h.runsTo_block hblock⟩

/-- One register read through one register write. -/
theorem readField_writeField (s : State) {r : Reg} (q : Reg) (v : Fe) (h : 4 ≤ r.val) :
    (s.writeField r v).readField q = if q = r then v else s.readField q := by
  split
  next hq => rw [hq, readField_writeField_self s r v h]
  next hq => exact readField_writeField_of_ne s r q v hq

/-! The ladder's iteration -/

/-- The points in X2, Z2, X3, Z3. -/
def pointsOf (s : State) : Points := ⟨s.readField Reg.X2, s.readField Reg.Z2, s.readField Reg.X3, s.readField Reg.Z3⟩

/-- Words 0x07 and 0x08, and again before the LOOPI: R144 and R148. -/
def swapWords : List Instr := [.cswap Reg.X2 Reg.X3, .cswap Reg.Z2 Reg.Z3]

/-- Words 0x09 .. 0x13: the differential addition (R145). -/
def additionWords : List Instr :=
  [.fadd Reg.A Reg.X2 Reg.Z2, .fsub Reg.B Reg.X2 Reg.Z2, .fadd Reg.C Reg.X3 Reg.Z3, .fsub Reg.D Reg.X3 Reg.Z3,
   .fmul Reg.DA Reg.D Reg.A, .fmul Reg.CB Reg.C Reg.B, .fadd Reg.T Reg.DA Reg.CB, .fsqr Reg.X3 Reg.T,
   .fsub Reg.T Reg.DA Reg.CB, .fsqr Reg.T Reg.T, .fmul Reg.Z3 Reg.X1 Reg.T]

/-- From word 0x14: the doubling (R146, R147). -/
def doublingWords : DblMode → List Instr
  | .rfc =>
    [.fsqr Reg.T Reg.A, .fsqr Reg.U Reg.B, .fmul Reg.X2 Reg.T Reg.U, .fsub Reg.U Reg.T Reg.U,
     .fmul Reg.C Reg.A24 Reg.U, .fadd Reg.T Reg.T Reg.C, .fmul Reg.Z2 Reg.U Reg.T]
  | .doc =>
    [.fsqr Reg.T Reg.A, .fsqr Reg.U Reg.B, .fsub Reg.X2 Reg.T Reg.U, .fmul Reg.T Reg.A Reg.B,
     .fadd Reg.T Reg.T Reg.T, .fadd Reg.Z2 Reg.T Reg.T]

/-- The words of one iteration, without its LOOPI. -/
def iterationWords (m : DblMode) : List Instr := swapWords ++ (additionWords ++ doublingWords m) ++ swapWords

/-- The two CSWAPs swap the points under the scalar's bit. -/
theorem pointsOf_swap (s : State) :
    pointsOf (blockEffect s swapWords) = (pointsOf s).swapIf (s.kbit s.bitidx) := by
  have hkbit (u : State) (r : Reg) (v : Fe) (n : BitVec 8) : (u.writeField r v).kbit n = u.kbit n := rfl
  cases hbit : s.kbit s.bitidx <;>
    simp +decide [swapWords, fieldEffect, readField_writeField, pointsOf, Points.swapIf, hkbit, hbit]

theorem readField_X1 (s : State) : s.readField Reg.X1 = toFe 9 := rfl

theorem readField_A24 (s : State) : s.readField Reg.A24 = toFe 121665 := rfl

/-- The step's words compute the step. -/
theorem pointsOf_step (m : DblMode) (s : State) :
    pointsOf (blockEffect s (additionWords ++ doublingWords m)) = (pointsOf s).step m := by
  cases m <;>
    simp +decide [additionWords, doublingWords, fieldEffect, readField_writeField, pointsOf, Points.step, doubling,
      readField_X1, readField_A24]

theorem blockEffect_append (s : State) (is js : List Instr) :
    blockEffect s (is ++ js) = blockEffect (blockEffect s is) js := List.foldl_append

/-- Field micro-operations keep the bit under the index. -/
theorem kbit_blockEffect (s : State) (is : List Instr) :
    (blockEffect s is).kbit (blockEffect s is).bitidx = s.kbit s.bitidx := by
  obtain ⟨f, hf⟩ := blockEffect_frame s is
  rw [hf]
  rfl

/-- An iteration swaps, steps, and swaps back on the same bit (R143, R148). -/
theorem pointsOf_iteration (m : DblMode) (s : State) :
    pointsOf (blockEffect s (iterationWords m)) = (pointsOf s).iterate m (s.kbit s.bitidx) := by
  rw [iterationWords, blockEffect_append, blockEffect_append, pointsOf_swap, pointsOf_step, pointsOf_swap,
    ← blockEffect_append, kbit_blockEffect, Points.iterate]

/-! The ladder -/

/-- The address of the LOOPI (R211, R212); the inversion begins at the next word. -/
def loopiAddr : DblMode → BitVec 6
  | .rfc => 0x1D
  | .doc => 0x1C

theorem blockAt_iteration (m : DblMode) : blockAt m 0x07 (iterationWords m) = true := by
  cases m <;> decide

theorem wordAt_loopi (m : DblMode) : wordAt m (loopiAddr m) = .ok (.loopi 0x07) := by
  cases m <;> decide

theorem Running.runsTo_iteration (h : Running m s) :
    ∃ f, RunsTo (iterationWords m).length (s.jump 0x07) ({ s with fregs := f }.jump (loopiAddr m)) ∧
      pointsOf { s with fregs := f } = (pointsOf s).iterate m ((leValue s.ibuf).testBit s.bitidx.toNat) := by
  have hend : 0x07 + BitVec.ofNat 6 (iterationWords m).length = loopiAddr m := by cases m <;> rfl
  obtain ⟨f, hf, hrun⟩ := h.exists_runsTo_block (blockAt_iteration m) hend
  rw [← kbit_eq_testBit, ← pointsOf_iteration, hf]
  exact ⟨f, hrun, rfl⟩

section
variable {n : Nat}

theorem ofNat_succ_sub_one (n : Nat) : BitVec.ofNat 8 (n + 1) - 1 = BitVec.ofNat 8 n := by
  bv_omega

theorem ofNat_succ_ne_zero (hn : n + 1 < 256) : BitVec.ofNat 8 (n + 1) ≠ 0 := by
  bv_omega

theorem Running.step_loopi_taken (h : Running m s) (hn : n + 1 < 256) :
    step ({ s with bitidx := BitVec.ofNat 8 (n + 1) }.jump (loopiAddr m)) =
      .next ({ s with bitidx := BitVec.ofNat 8 n }.jump 0x07) := by
  rw [Running.step_jump (s := { s with bitidx := BitVec.ofNat 8 (n + 1) }) h (wordAt_loopi m), ← ofNat_succ_sub_one n]
  exact execLoopi_of_ne_zero _ (ofNat_succ_ne_zero hn)

theorem Running.step_loopi_done (h : Running m s) :
    step ({ s with bitidx := 0 }.jump (loopiAddr m)) = .next ({ s with bitidx := 0 }.jump (loopiAddr m + 1)) := by
  rw [Running.step_jump (s := { s with bitidx := 0 }) h (wordAt_loopi m)]
  exact execLoopi_of_eq_zero _ rfl

/-- From bit index n the ladder takes n + 1 iterations, each with its LOOPI (R143). -/
theorem Running.runsTo_iterations (h : Running m s) (hn : n < 256) :
    ∃ f, RunsTo ((n + 1) * ((iterationWords m).length + 1)) ({ s with bitidx := BitVec.ofNat 8 n }.jump 0x07)
        ({ s with fregs := f, bitidx := 0 }.jump (loopiAddr m + 1)) ∧
      pointsOf { s with fregs := f } = ladderFrom m (leValue s.ibuf) (n + 1) (pointsOf s) := by
  induction n generalizing s with
  | zero =>
    obtain ⟨f, hrun, hpoints⟩ := Running.runsTo_iteration (s := { s with bitidx := 0 }) h
    have hdone := Running.step_loopi_done (s := { s with fregs := f }) h
    rw [Nat.zero_add, Nat.one_mul]
    exact ⟨f, hrun.trans (.one hdone), hpoints⟩
  | succ n ih =>
    obtain ⟨f, hrun, hpoints⟩ := Running.runsTo_iteration (s := { s with bitidx := BitVec.ofNat 8 (n + 1) }) h
    have htaken := Running.step_loopi_taken (s := { s with fregs := f }) h hn
    obtain ⟨g, hrest, hladder⟩ := ih (s := { s with fregs := f }) h (Nat.lt_of_succ_lt hn)
    have hbit : (BitVec.ofNat 8 (n + 1)).toNat = n + 1 := Nat.mod_eq_of_lt hn
    rw [hbit] at hpoints
    have hall := hrun.trans (.head htaken hrest)
    refine ⟨g, ?_, hladder.trans (congrArg _ hpoints)⟩
    rwa [show (n + 1 + 1) * ((iterationWords m).length + 1) =
      (iterationWords m).length + ((n + 1) * ((iterationWords m).length + 1) + 1) by ring]

end

/-! The initialisation -/

/-- Words 0x02 .. 0x05: the points before the first iteration (R142). -/
def initWords : List Instr :=
  [.fmov Reg.X2 Reg.ONE, .fmov Reg.Z2 Reg.ZERO, .fmov Reg.X3 Reg.X1, .fmov Reg.Z3 Reg.ONE]

theorem readField_ZERO (s : State) : s.readField Reg.ZERO = toFe 0 := rfl

theorem readField_ONE (s : State) : s.readField Reg.ONE = toFe 1 := rfl

/-- The third operand of FMOV adds 0 (R95). -/
theorem feAdd_readField_zero (s : State) (x : Fe) : feAdd x (s.readField 0) = x :=
  (congrArg (feAdd x) (readField_ZERO s)).trans (residue_injective (by simp))

theorem pointsOf_init (s : State) : pointsOf (blockEffect s initWords) = Points.initial := by
  simp +decide [initWords, Instr.fmov, fieldEffect, feAdd_readField_zero, readField_writeField, pointsOf,
    Points.initial, readField_X1, readField_ONE, readField_ZERO]

/-- The four FMOVs and the SETI 254, the first bit index (R142, R143). -/
theorem Running.runsTo_init (h : Running m s) :
    ∃ f, RunsTo 5 (s.jump 0x02) ({ s with fregs := f, bitidx := BitVec.ofNat 8 254 }.jump 0x07) ∧
      pointsOf { s with fregs := f } = Points.initial := by
  have hblock : blockAt m 0x02 initWords = true := by cases m <;> decide
  have hword : wordAt m 0x06 = .ok (.seti 254) := by cases m <;> decide
  obtain ⟨f, hf, hrun⟩ := h.exists_runsTo_block hblock rfl
  have hstep := Running.step_jump (s := { s with fregs := f }) h hword
  exact ⟨f, hrun.trans (.one hstep), hf ▸ pointsOf_init s⟩

/-- Words 0x02 .. LOOPI: the ladder of R150, whatever the registers held (R214). -/
theorem Running.runsTo_ladder (h : Running m s) :
    ∃ f, RunsTo (5 + 255 * ((iterationWords m).length + 1)) (s.jump 0x02)
        ({ s with fregs := f, bitidx := 0 }.jump (loopiAddr m + 1)) ∧
      ({ s with fregs := f }.readField Reg.X2, { s with fregs := f }.readField Reg.Z2) = ladder m s.ibuf := by
  obtain ⟨f, hinit, hpoints⟩ := h.runsTo_init
  obtain ⟨g, hrun, hladder⟩ := Running.runsTo_iterations (s := { s with fregs := f }) (n := 254) h (by decide)
  rw [hpoints] at hladder
  exact ⟨g, hinit.trans hrun, congrArg (fun q : Points => (q.x2, q.z2)) hladder⟩

/-! The inversion and the affine conversion -/

/-- What the inversion and the conversion read and write: X2, Z2 and R. -/
structure AffineRegs where
  x2 : Fe
  z2 : Fe
  r : Fe

/-- The values of X2, Z2 and R. -/
def affineRegsOf (s : State) : AffineRegs := ⟨s.readField Reg.X2, s.readField Reg.Z2, s.readField Reg.R⟩

/-- n rounds on R, with z = Z2 (R162). -/
def AffineRegs.rounds (n : Nat) (q : AffineRegs) : AffineRegs := { q with r := squareMultiply q.z2 n q.r }

/-- The chain after its 249 rounds (R162), and the product with X2 (R164). -/
def AffineRegs.convert (q : AffineRegs) : AffineRegs :=
  { q with r := feMul q.x2 (squareMultiply q.z2 2 (feSqr (squareMultiply q.z2 1 (feSqr q.r)))) }

/-- R := Z2, the 249 rounds and the conversion are the affine value (R163, R164). -/
theorem AffineRegs.convert_rounds (q : AffineRegs) :
    ({ q with r := q.z2 }.rounds 249).convert = ⟨q.x2, q.z2, affine q.x2 q.z2⟩ := by
  simp only [AffineRegs.rounds, AffineRegs.convert, affine_eq_feMul, fieldInv]

/-- A round `r = r²; r = r · z` (R162). -/
def roundWords : List Instr := [.fsqr Reg.R Reg.R, .fmul Reg.R Reg.R Reg.Z2]

/-- The words from the LOOPR to the ENC: exponent bits 4 .. 0 (R162), and the product with X2 (R164). -/
def conversionWords : List Instr :=
  .fsqr Reg.R Reg.R :: roundWords ++ .fsqr Reg.R Reg.R :: roundWords ++ roundWords ++ [.fmul Reg.R Reg.X2 Reg.R]

theorem affineRegsOf_fmov (s : State) :
    affineRegsOf (blockEffect s [.fmov Reg.R Reg.Z2]) = { affineRegsOf s with r := (affineRegsOf s).z2 } := by
  simp +decide [affineRegsOf, Instr.fmov, fieldEffect, feAdd_readField_zero, readField_writeField]

theorem affineRegsOf_round (s : State) : affineRegsOf (blockEffect s roundWords) = (affineRegsOf s).rounds 1 := by
  simp +decide [affineRegsOf, roundWords, fieldEffect, readField_writeField, AffineRegs.rounds, squareMultiply]

theorem affineRegsOf_conversion (s : State) :
    affineRegsOf (blockEffect s conversionWords) = (affineRegsOf s).convert := by
  simp +decide [affineRegsOf, conversionWords, roundWords, fieldEffect, readField_writeField, AffineRegs.convert,
    squareMultiply]

/-- The FMOV and the SETR 248 (R162). -/
theorem Running.runsTo_chainStart (h : Running m s) :
    ∃ f, RunsTo 2 (s.jump (loopiAddr m + 1))
        ({ s with fregs := f, rep := BitVec.ofNat 8 248 }.jump (loopiAddr m + 3)) ∧
      affineRegsOf { s with fregs := f } = { affineRegsOf s with r := (affineRegsOf s).z2 } := by
  have hblock : blockAt m (loopiAddr m + 1) [.fmov Reg.R Reg.Z2] = true := by cases m <;> decide
  have hword : wordAt m (loopiAddr m + 2) = .ok (.setr 248) := by cases m <;> decide
  have hend : loopiAddr m + 1 + 1 = loopiAddr m + 2 := by cases m <;> rfl
  have hnext : loopiAddr m + 2 + 1 = loopiAddr m + 3 := by cases m <;> rfl
  obtain ⟨f, hf, hrun⟩ := h.exists_runsTo_block hblock hend
  have hstep := Running.step_jump (s := { s with fregs := f }) h hword
  rw [← hnext]
  exact ⟨f, hrun.trans (.one hstep), hf ▸ affineRegsOf_fmov s⟩

section
variable {n : Nat}

theorem wordAt_loopr (m : DblMode) : wordAt m (loopiAddr m + 5) = .ok (.loopr (loopiAddr m + 3)) := by
  cases m <;> decide

theorem Running.step_loopr_taken (h : Running m s) (hn : n + 1 < 256) :
    step ({ s with rep := BitVec.ofNat 8 (n + 1) }.jump (loopiAddr m + 5)) =
      .next ({ s with rep := BitVec.ofNat 8 n }.jump (loopiAddr m + 3)) := by
  rw [Running.step_jump (s := { s with rep := BitVec.ofNat 8 (n + 1) }) h (wordAt_loopr m), ← ofNat_succ_sub_one n]
  exact execLoopr_of_ne_zero _ (ofNat_succ_ne_zero hn)

theorem Running.step_loopr_done (h : Running m s) :
    step ({ s with rep := 0 }.jump (loopiAddr m + 5)) = .next ({ s with rep := 0 }.jump (loopiAddr m + 6)) := by
  have hnext : loopiAddr m + 5 + 1 = loopiAddr m + 6 := by cases m <;> rfl
  rw [Running.step_jump (s := { s with rep := 0 }) h (wordAt_loopr m), ← hnext]
  exact execLoopr_of_eq_zero _ rfl

theorem Running.runsTo_round (h : Running m s) :
    ∃ f, RunsTo 2 (s.jump (loopiAddr m + 3)) ({ s with fregs := f }.jump (loopiAddr m + 5)) ∧
      affineRegsOf { s with fregs := f } = (affineRegsOf s).rounds 1 := by
  have hblock : blockAt m (loopiAddr m + 3) roundWords = true := by cases m <;> decide
  have hend : loopiAddr m + 3 + 2 = loopiAddr m + 5 := by cases m <;> rfl
  obtain ⟨f, hf, hrun⟩ := h.exists_runsTo_block hblock hend
  exact ⟨f, hrun, hf ▸ affineRegsOf_round s⟩

/-- From the repeat count n the inversion takes n + 1 rounds, each with its LOOPR (R162). -/
theorem Running.runsTo_rounds (h : Running m s) (hn : n < 256) :
    ∃ f, RunsTo ((n + 1) * 3) ({ s with rep := BitVec.ofNat 8 n }.jump (loopiAddr m + 3))
        ({ s with fregs := f, rep := 0 }.jump (loopiAddr m + 6)) ∧
      affineRegsOf { s with fregs := f } = (affineRegsOf s).rounds (n + 1) := by
  induction n generalizing s with
  | zero =>
    obtain ⟨f, hrun, hregs⟩ := Running.runsTo_round (s := { s with rep := 0 }) h
    have hdone := Running.step_loopr_done (s := { s with fregs := f }) h
    exact ⟨f, hrun.trans (.one hdone), hregs⟩
  | succ n ih =>
    obtain ⟨f, hrun, hregs⟩ := Running.runsTo_round (s := { s with rep := BitVec.ofNat 8 (n + 1) }) h
    have htaken := Running.step_loopr_taken (s := { s with fregs := f }) h hn
    obtain ⟨g, hrest, hrounds⟩ := ih (s := { s with fregs := f }) h (Nat.lt_of_succ_lt hn)
    have hall := hrun.trans (.head htaken hrest)
    refine ⟨g, ?_, hrounds.trans (congrArg (AffineRegs.rounds (n + 1)) hregs)⟩
    rwa [show (n + 1 + 1) * 3 = 2 + ((n + 1) * 3 + 1) by ring]

end

/-- The words from the LOOPR to the ENC. -/
theorem Running.runsTo_conversion (h : Running m s) :
    ∃ f, RunsTo 9 (s.jump (loopiAddr m + 6)) ({ s with fregs := f }.jump (loopiAddr m + 15)) ∧
      affineRegsOf { s with fregs := f } = (affineRegsOf s).convert := by
  have hblock : blockAt m (loopiAddr m + 6) conversionWords = true := by cases m <;> decide
  have hend : loopiAddr m + 6 + 9 = loopiAddr m + 15 := by cases m <;> rfl
  obtain ⟨f, hf, hrun⟩ := h.exists_runsTo_block hblock hend
  exact ⟨f, hrun, hf ▸ affineRegsOf_conversion s⟩

/-- From the word after the LOOPI to the ENC: R takes Affine(X2, Z2) (R163, R164). -/
theorem Running.runsTo_affine (h : Running m s) :
    ∃ f, RunsTo (2 + 249 * 3 + 9) (s.jump (loopiAddr m + 1))
        ({ s with fregs := f, rep := 0 }.jump (loopiAddr m + 15)) ∧
      affineRegsOf { s with fregs := f } =
        ⟨(affineRegsOf s).x2, (affineRegsOf s).z2, affine (affineRegsOf s).x2 (affineRegsOf s).z2⟩ := by
  obtain ⟨f₁, hstart, hregs₁⟩ := h.runsTo_chainStart
  obtain ⟨f₂, hrounds, hregs₂⟩ := Running.runsTo_rounds (s := { s with fregs := f₁ }) (n := 248) h (by decide)
  obtain ⟨f₃, hconversion, hregs₃⟩ := Running.runsTo_conversion (s := { s with fregs := f₂, rep := 0 }) h
  refine ⟨f₃, (hstart.trans hrounds).trans hconversion, ?_⟩
  rw [← AffineRegs.convert_rounds, ← hregs₁, ← hregs₂]
  exact hregs₃

/-! The two programs -/

theorem wordAt_enc (m : DblMode) : wordAt m (loopiAddr m + 15) = .ok (.enc Reg.R) := by
  cases m <;> decide

theorem wordAt_haltAddr (m : DblMode) : wordAt m (BitVec.ofNat 6 (haltAddr m)) = .ok .halt := by
  cases m <;> decide

/-- From the entry of MULBASE to its HALT, which is one step more: the ladder's result in X2 and Z2, the affine value in
R, and its encoding in OBUF (R213). -/
theorem Running.runsTo_encode (h : Running m s) :
    ∃ f, RunsTo (mulbaseSteps m - 1) (s.jump 0x02)
        ({ s with fregs := f, bitidx := 0, rep := 0, obuf := mulBase m s.ibuf }.jump (BitVec.ofNat 6 (haltAddr m))) ∧
      affineRegsOf { s with fregs := f } =
        ⟨(ladder m s.ibuf).1, (ladder m s.ibuf).2, affine (ladder m s.ibuf).1 (ladder m s.ibuf).2⟩ := by
  obtain ⟨f₁, hladder, hpoint⟩ := h.runsTo_ladder
  obtain ⟨f, haffine, hregs⟩ := Running.runsTo_affine (s := { s with fregs := f₁, bitidx := 0 }) h
  have hx2 : (affineRegsOf { s with fregs := f₁, bitidx := 0 }).x2 = (ladder m s.ibuf).1 := congrArg Prod.fst hpoint
  have hz2 : (affineRegsOf { s with fregs := f₁, bitidx := 0 }).z2 = (ladder m s.ibuf).2 := congrArg Prod.snd hpoint
  rw [hx2, hz2] at hregs
  have hr : { s with fregs := f }.readField Reg.R = affine (ladder m s.ibuf).1 (ladder m s.ibuf).2 :=
    congrArg AffineRegs.r hregs
  have hmulBase : le32 ({ s with fregs := f }.readField Reg.R).val = mulBase m s.ibuf :=
    congrArg (fun r : Fe => le32 r.val) hr
  have henc := Running.step_jump (s := { s with fregs := f, bitidx := 0, rep := 0 }) h (wordAt_enc m)
  have hsteps : mulbaseSteps m - 1 = 5 + 255 * ((iterationWords m).length + 1) + (2 + 249 * 3 + 9 + 1) := by
    cases m <;> rfl
  have hhalt : loopiAddr m + 15 + 1 = BitVec.ofNat 6 (haltAddr m) := by cases m <;> rfl
  rw [hsteps, ← hmulBase, ← hhalt]
  exact ⟨f, hladder.trans (haffine.trans (.one henc)), hregs⟩

/-- The microprogram of CLAMP: its CLMP, then its HALT (R185). -/
theorem Running.runsTo_clamp (h : Running m s) :
    RunsTo clampSteps (s.jump 0x00)
      ({ s with ibuf := clampBytes s.ibuf, busy := false, done := true }.jump 0x01) := by
  have hclmp : wordAt m 0x00 = .ok .clmp := by cases m <;> decide
  have hhalt : wordAt m 0x01 = .ok .halt := by cases m <;> decide
  exact .head (h.step_jump hclmp) (.one (Running.step_jump (s := { s with ibuf := clampBytes s.ibuf }) h hhalt))

/-- The microprogram of MULBASE, its HALT included (R213). -/
theorem Running.runsTo_mulbase (h : Running m s) :
    ∃ f, RunsTo (mulbaseSteps m) (s.jump 0x02)
        ({ s with fregs := f, bitidx := 0, rep := 0, obuf := mulBase m s.ibuf, busy := false, done := true }.jump
          (BitVec.ofNat 6 (haltAddr m))) ∧
      affineRegsOf { s with fregs := f } =
        ⟨(ladder m s.ibuf).1, (ladder m s.ibuf).2, affine (ladder m s.ibuf).1 (ladder m s.ibuf).2⟩ := by
  obtain ⟨f, hrun, hregs⟩ := h.runsTo_encode
  have hhalt := Running.step_jump
    (s := { s with fregs := f, bitidx := 0, rep := 0, obuf := mulBase m s.ibuf }) h (wordAt_haltAddr m)
  have hsteps : mulbaseSteps m = mulbaseSteps m - 1 + 1 := by cases m <;> rfl
  rw [hsteps]
  exact ⟨f, hrun.trans (.one hhalt), hregs⟩

/-! The two commands -/

/-- An idle block, as an accepted MULBASE or CLAMP leaves it before `upc` is set (R182, R184, R185). -/
def started (s : State) : State := { s with done := false, err := false, errcode := 0, busy := true }

theorem running_started (hrom : s.rom = romImage m) (hturns : s.turns = []) : Running m (started s) :=
  ⟨hrom, hturns, rfl⟩

/-- With a length other than 32 an accepted MULBASE or CLAMP raises InvalidScalarLength (R222). -/
theorem hostCommand_startProgram_of_ilen_ne (entry : BitVec 6) (hb : s.busy = false) (hl : s.ilen ≠ 32) :
    s.hostCommand (fun u => u.startProgram entry) = .next (s.raiseError .invalidScalarLength) := by
  rw [hostCommand_of_idle hb, startProgram_of_ilen_ne (s := s.acceptCommand) entry hl]
  rfl

/-- Settles O53: CLAMP starts the program at 0x00, which clamps IBUF and halts. -/
theorem clampCommandClampsInPlace : Obligations.ClampCommandClampsInPlace := by
  unfold Obligations.ClampCommandClampsInPlace
  intro m s hrom hturns hb
  refine ⟨fun hl => ⟨(started s).jump 0x00, hostCommand_startProgram 0x00 hb hl, rfl, rfl, ?_⟩,
    hostCommand_startProgram_of_ilen_ne 0x00 hb⟩
  exact (running_started hrom hturns).runsTo_clamp

/-- Settles O55: MULBASE starts the program at 0x02, which ends with MulBase(IBUF) in OBUF. -/
theorem mulbaseCommandYieldsMulBase : Obligations.MulbaseCommandYieldsMulBase := by
  unfold Obligations.MulbaseCommandYieldsMulBase
  intro m s hrom hturns hb
  refine ⟨fun hl => ?_, hostCommand_startProgram_of_ilen_ne 0x02 hb⟩
  obtain ⟨f, hrun, -⟩ := (running_started hrom hturns).runsTo_mulbase
  exact ⟨(started s).jump 0x02, _, hostCommand_startProgram 0x02 hb hl, rfl, rfl, rfl, hrun, rfl, rfl, rfl, rfl, rfl,
    rfl, rfl, rfl, rfl⟩

end Sys2Proof.Proofs
end

section
/-! PROOFS. BUSY along a run of the microprogram of MULBASE (R213). While only the sequencer steps, an idle block stays
as it is (R180), so a run that ends in a busy state was busy throughout. -/

namespace Sys2Proof.Proofs

open Sys2Proof.Machine Sys2Proof.Laws

variable {s t : State} {i : Instr} {n : Nat}

theorem MicroEffect.turns_eq (hm : MicroEffect s i t) : t.turns = s.turns := by
  cases hm <;> rfl

/-- While no other step is to come, only the sequencer steps, and it adds no turn. -/
theorem turns_eq_nil_of_step (hs : s.turns = []) (h : step s = .next t) : t.turns = [] := by
  rw [step_of_nil hs] at h
  cases hb : s.busy with
  | false =>
    rw [sequencerTurn_of_idle hb] at h
    cases h
    exact hs
  | true =>
    rw [sequencerTurn, if_pos hb] at h
    obtain ⟨i, hi, hx⟩ | ⟨e, -, rfl⟩ := microStep_cases h
    · exact (microEffect_of_exec (kind_ne_none_of_decodeMicro hi) hx).turns_eq.trans hs
    · exact hs

theorem RunsTo.unique {u : State} (ht : RunsTo n s t) (hu : RunsTo n s u) : t = u :=
  Host.Outcome.next.inj (ht.symm.trans hu)

/-- An idle block waits for the host (R180). -/
theorem runsTo_self_of_idle (hs : s.turns = []) (hb : s.busy = false) (n : Nat) : RunsTo n s s := by
  induction n with
  | zero => exact .refl s
  | succ n ih => exact .head ((step_of_nil hs).trans (sequencerTurn_of_idle hb)) ih

/-- A run that ends in a busy state began in one. -/
theorem RunsTo.busy_of_busy (h : RunsTo n s t) (hs : s.turns = []) (ht : t.busy = true) : s.busy = true := by
  refine Bool.eq_true_of_not_eq_false fun hb => ?_
  rw [h.unique (runsTo_self_of_idle hs hb n), hb] at ht
  exact Bool.false_ne_true ht

/-- A run that ends in a busy state is in a busy state after each number of its steps. -/
theorem RunsTo.exists_busy {k : Nat} {u : State} (h : RunsTo (n + k) s u) (hs : s.turns = []) (hu : u.busy = true) :
    ∃ t, RunsTo n s t ∧ t.busy = true := by
  induction n generalizing s with
  | zero => exact ⟨s, .refl s, h.busy_of_busy hs hu⟩
  | succ n ih =>
    rw [Nat.succ_add] at h
    obtain ⟨v, hstep, hrest⟩ := h.exists_step
    obtain ⟨t, hrun, ht⟩ := ih hrest (turns_eq_nil_of_step hs hstep)
    exact ⟨t, .head hstep hrun, ht⟩

theorem jump_of_upc_eq {a : BitVec 6} (h : s.upc = a) : s.jump a = s := h ▸ rfl

/-- Settles O54: BUSY holds up to the HALT because it holds at the HALT, the last state before the end; the end is that
of the microprogram of MULBASE; CLAMP is its two words. -/
theorem microprogramsComputeTheirFunctions : Obligations.MicroprogramsComputeTheirFunctions := by
  unfold Obligations.MicroprogramsComputeTheirFunctions
  intro m s hrom hturns hb
  have hrunning : Running m s := ⟨hrom, hturns, hb⟩
  refine ⟨fun hupc => ⟨fun n hn => ?_, ?_⟩, fun hupc => ?_⟩
  · obtain ⟨f, hrun, -⟩ := hrunning.runsTo_encode
    rw [jump_of_upc_eq hupc, ← Nat.add_sub_of_le (Nat.le_sub_one_of_lt hn)] at hrun
    exact hrun.exists_busy hturns hb
  · obtain ⟨f, hrun, hregs⟩ := hrunning.runsTo_mulbase
    rw [jump_of_upc_eq hupc] at hrun
    have hhalt : (BitVec.ofNat 6 (haltAddr m)).toNat = haltAddr m := by cases m <;> rfl
    exact ⟨_, hrun, congrArg (fun q : AffineRegs => (q.x2, q.z2)) hregs, congrArg AffineRegs.r hregs, rfl, hhalt, rfl⟩
  · have hrun := hrunning.runsTo_clamp
    rwa [jump_of_upc_eq hupc] at hrun

end Sys2Proof.Proofs
end

section
/-! PROOFS. The exceptions of the block (60_exceptions.md): the one error entry (R224), the length error (R222), the
order of the checks of a command (R230), and that no legal micro-operation raises (R228). -/

namespace Sys2Proof.Proofs

open Sys2Proof.Machine Sys2Proof.Laws

variable {s t : State} {i : Instr}

/-! The error entry and the length error -/

/-- An error shows in no byte of the window but `STATUS` (R224). -/
theorem windowRead_raiseError (s : State) (e : ErrKind) {off : Nat} (h : off ≠ 1) :
    (s.raiseError e).windowRead off = s.windowRead off :=
  windowRead_congr_of_ne_status (raiseError_ilen s e) (raiseError_ibuf s e) (raiseError_obuf s e) h

/-- Settles O23: the entry writes four flags, which no register and no byte of the window but `STATUS` shows. -/
theorem raiseChangesOnlyStatus : Obligations.RaiseChangesOnlyStatus := by
  unfold Obligations.RaiseChangesOnlyStatus
  exact fun e s => ⟨rfl, rfl, rfl, rfl, rfl, fun r => readField_raiseError s r e,
    fun _ hoff => windowRead_raiseError s e hoff, rfl, rfl, rfl, rfl⟩

/-- Settles O22: both commands make the one length check, whatever their entry. -/
theorem wrongLengthRaisesInvalidScalarLength : Obligations.WrongLengthRaisesInvalidScalarLength := by
  unfold Obligations.WrongLengthRaisesInvalidScalarLength
  exact fun _ hb hl =>
    ⟨hostCommand_startProgram_of_ilen_ne 0x02 hb hl, hostCommand_startProgram_of_ilen_ne 0x00 hb hl⟩

/-! The order of the checks -/

/-- The one way a micro-operation writes ERR is MicroFault (R221, R226). -/
theorem MicroEffect.err_eq_or_microFault (hm : MicroEffect s i t) :
    t.err = s.err ∨ t = s.raiseError .microFault := by
  cases hm with
  | fields | control | encode | clamp | halt => exact .inl rfl
  | microFault => exact .inr rfl

/-- The one error of the sequencer's turn is MicroFault (R221, R230). -/
theorem sequencerTurn_err_eq_or_microFault (h : sequencerTurn s = .next t) :
    t.err = s.err ∨ t = s.raiseError .microFault := by
  cases hb : s.busy with
  | false =>
    rw [sequencerTurn_of_idle hb] at h
    cases h
    exact .inl rfl
  | true =>
    rw [sequencerTurn, if_pos hb] at h
    obtain ⟨i, hi, hx⟩ | ⟨e, -, ht⟩ := microStep_cases h
    · exact (microEffect_of_exec (kind_ne_none_of_decodeMicro hi) hx).err_eq_or_microFault
    · exact .inr ht

/-- The `CMD` bytes 0x01 and 0x02 with a length other than 32 raise InvalidScalarLength (R84, R222). -/
theorem commandWrite_of_ilen_ne {v : Byte} (hb : s.busy = false) (hv : v = 1 ∨ v = 2) (hl : s.ilen ≠ 32) :
    commandWrite v s = .next (s.raiseError .invalidScalarLength) := by
  obtain rfl | rfl := hv
  · exact (commandWrite_of_decode_ok (i := .mulbase) rfl).trans (hostCommand_startProgram_of_ilen_ne 0x02 hb hl)
  · exact (commandWrite_of_decode_ok (i := .clamp) rfl).trans (hostCommand_startProgram_of_ilen_ne 0x00 hb hl)

/-- Settles O24: each check of a `CMD` write by its own lemma, and the sequencer's one error. -/
theorem commandChecksHavePriority : Obligations.CommandChecksHavePriority := by
  unfold Obligations.CommandChecksHavePriority
  refine ⟨fun v s => ⟨fun hb => commandWrite_of_busy hb v, fun hb hv => ?byte, fun hb hv hl => ?length⟩,
    fun s t _ herr h ht => ?micro⟩
  case byte => exact ⟨_, commandWrite_of_decode_error hb (decodeCommand_of_three_le hv), rfl, rfl⟩
  case length => exact ⟨_, commandWrite_of_ilen_ne hb hv hl, rfl, rfl⟩
  case micro =>
    obtain hkeep | rfl := sequencerTurn_err_eq_or_microFault h
    · simp [hkeep, herr] at ht
    · rfl

/-! What `exec` answers -/

/-- A legal micro-operation keeps ERR, ERRCODE and OVR (R228). -/
theorem exec_keeps_error_items (hwf : i.WellFormed) (hk : i.kind? ≠ none) (s : State) :
    ∃ t, exec i s = .next t ∧ t.err = s.err ∧ t.errcode = s.errcode ∧ t.ovr = s.ovr := by
  cases i with
  | fadd | fsub | fmul | fsqr | cswap =>
    exact ⟨_, exec_of_writesFields rfl hwf s, rfl, rfl, rfl⟩
  | seti | setr | enc | clmp | halt => exact ⟨_, rfl, rfl, rfl, rfl⟩
  | loopi tgt =>
    by_cases hz : s.bitidx = 0
    · exact ⟨_, execLoopi_of_eq_zero tgt hz, rfl, rfl, rfl⟩
    · exact ⟨_, execLoopi_of_ne_zero tgt hz, rfl, rfl, rfl⟩
  | loopr tgt =>
    by_cases hz : s.rep = 0
    · exact ⟨_, execLoopr_of_eq_zero tgt hz, rfl, rfl, rfl⟩
    · exact ⟨_, execLoopr_of_ne_zero tgt hz, rfl, rfl, rfl⟩
  | clr | mulbase | clamp => exact absurd rfl hk

/-- A host command is a `hostCommand`, which always answers a next state (R182). -/
theorem exists_exec_eq_next_of_command (hk : i.kind? = none) (s : State) : ∃ t, exec i s = .next t := by
  cases i with
  | clr | mulbase | clamp => exact ⟨_, rfl⟩
  | _ => cases hk

theorem exists_exec_eq_next (i : Instr) (s : State) : ∃ t, exec i s = .next t := by
  by_cases hk : i.kind? = none
  · exact exists_exec_eq_next_of_command hk s
  · by_cases hwf : i.WellFormed
    · exact (exec_keeps_error_items hwf hk s).imp fun _ ⟨ht, _⟩ => ht
    · exact ⟨_, exec_of_not_wellFormed hwf⟩

/-- Settles O34: a command answers, an ill-formed term answers MicroFault (log 10), and a legal micro-operation answers
with the error items kept. -/
theorem noMicroOperationRaises : Obligations.NoMicroOperationRaises := by
  unfold Obligations.NoMicroOperationRaises
  exact fun i s => ⟨exists_exec_eq_next i s, fun hwf hk => exec_keeps_error_items hwf hk s⟩

end Sys2Proof.Proofs
end

section
/-! PROOFS. Reset (70_reset_and_hazards.md, R250), and that control does not depend on the scalar (R261, R262): a step
made from the control of a state alone leaves the same control, so two states of the same control step alike. -/

namespace Sys2Proof.Proofs

open Sys2Proof.Machine Sys2Proof.Laws

variable {s t : State}

/-! Reset -/

theorem step_of_reset {rest : List Turn} (h : s.turns = .reset :: rest) :
    step s = .next { s with turns := rest }.resetEvent := by
  simp only [step, h]

theorem statusByte_resetEvent (s : State) : s.resetEvent.statusByte = 0 := by
  simp [State.statusByte]

theorem readField_eq_of_constant {r : Reg} (h : r.val < 4) (s t : State) : t.readField r = s.readField r :=
  (readField_of_constant t r h).trans (readField_of_constant s r h).symm

/-- Settles O33: a reset event zeroes all that the window reads, and the constants are not stored. -/
theorem resetEventSetsEveryItem : Obligations.ResetEventSetsEveryItem := by
  unfold Obligations.ResetEventSetsEveryItem
  refine fun s rest hs => ⟨{ s with turns := rest }.resetEvent, step_of_reset hs, fun off => ?window,
    fun r hr => readField_eq_of_constant hr s _, rfl⟩
  case window => exact windowRead_eq_zero (statusByte_resetEvent _) rfl rfl rfl off

/-! The control of a state -/

/-- The state with blanks for what `SameControl` leaves open: the field registers and the two buffers, which may hold
the scalar or what derives from it (R262), the count of free values, and the host's record. -/
def controlOf (s : State) : State :=
  { s with
    fregs := Vector.replicate 12 0, ibuf := Vector.replicate 32 0, obuf := Vector.replicate 32 0
    freeCount := 0, replies := [] }

/-- The control of the next state, or the reason of the stop. -/
def outcomeControl : Result → Result
  | .next s => .next (controlOf s)
  | .fault r => .fault r
  | .refused r => .refused r

theorem sameControl_iff : SameControl s t ↔ controlOf s = controlOf t := by
  simp [SameControl, controlOf, and_comm, and_left_comm, and_assoc]

theorem sameControlOutcome_iff {x y : Result} :
    SameControlOutcome x y ↔ outcomeControl x = outcomeControl y := by
  cases x <;> cases y <;> simp [SameControlOutcome, outcomeControl, sameControl_iff]

theorem microOp?_controlOf (s : State) : (controlOf s).microOp? = s.microOp? := rfl

/-! A micro-step and an illegal command byte, by what they decode to -/

theorem microStep_of_decode_ok {i : Instr} (h : decodeMicro s.fetch = .ok i) : microStep s = exec i s := by
  simp only [microStep, h]

theorem microStep_of_decode_error {e : DecodeError} (h : decodeMicro s.fetch = .error e) :
    microStep s = .next (s.raiseError .microFault) := by
  simp only [microStep, h]

theorem commandWrite_eq_illegalCommand {v : Byte} {e : DecodeError} (h : decodeCommand v = .error e) (s : State) :
    commandWrite v s = illegalCommand s := by
  simp only [commandWrite, h]

/-! Control is determined by control -/

/-- The commuting square of R262 (a): `f` leaves the same control whether or not it sees the scalar. -/
def ControlDetermined (f : State → Result) : Prop :=
  ∀ s : State, outcomeControl (f (controlOf s)) = outcomeControl (f s)

namespace ControlDetermined

variable {f g : State → Result}

theorem sameControlOutcome (hf : ControlDetermined f) (h : SameControl s t) : SameControlOutcome (f s) (f t) :=
  sameControlOutcome_iff.2 <|
    calc outcomeControl (f s)
      _ = outcomeControl (f (controlOf s)) := (hf s).symm
      _ = outcomeControl (f (controlOf t)) := by rw [sameControl_iff.1 h]
      _ = outcomeControl (f t) := hf t

/-- A branch on a condition that control decides. -/
theorem ite {c : State → Prop} [∀ s, Decidable (c s)] (hc : ∀ s, c (controlOf s) ↔ c s)
    (hf : ControlDetermined f) (hg : ControlDetermined g) :
    ControlDetermined fun s => if c s then f s else g s := by
  intro s
  by_cases h : c s
  · simpa only [hc s, h, if_true] using hf s
  · simpa only [hc s, h, if_false] using hg s

/-- The same branch inside a next state. -/
theorem next_ite {c : State → Prop} [∀ s, Decidable (c s)] {f g : State → State}
    (hc : ∀ s, c (controlOf s) ↔ c s) (hf : ControlDetermined fun s => .next (f s))
    (hg : ControlDetermined fun s => .next (g s)) :
    ControlDetermined fun s => .next (if c s then f s else g s) := by
  simpa only [apply_ite Host.Outcome.next] using ite hc hf hg

/-- The destination decides between a result and MicroFault; the value goes to a field register (R90, R121). -/
theorem fieldResult (rd : Reg) (v : State → Fe) : ControlDetermined fun s => s.fieldResult rd (v s) :=
  ite (fun _ => Iff.rfl) (fun _ => rfl) fun _ => rfl

/-- `BUSY` decides between a dropped and an accepted command (R182, R189). -/
theorem hostCommand {body : State → State} (h : ControlDetermined fun s => .next (body s)) :
    ControlDetermined fun s => s.hostCommand body :=
  next_ite (fun _ => Iff.rfl) (fun _ => rfl) fun s => h s.acceptCommand

/-- `ILEN` decides between the entry and the length error (R184, R185, R222). -/
theorem startProgram (entry : BitVec 6) : ControlDetermined fun s => .next (s.startProgram entry) :=
  next_ite (fun _ => Iff.rfl) (fun _ => rfl) fun _ => rfl

/-- `BUSY` decides whether a byte is counted; the byte itself goes to IBUF (R186, R189). -/
theorem pushByte (v : Byte) : ControlDetermined fun s => .next (s.pushByte v) :=
  next_ite (fun _ => Iff.rfl) (fun _ => rfl) fun _ => rfl

/-- Every instruction: the loops test `bitidx` and `rep`, the commands `BUSY` and `ILEN`, CSWAP its operands' numbers,
and the others test nothing; no condition reads the scalar (R190, R262). -/
theorem exec (i : Instr) : ControlDetermined (exec i) := by
  cases i with
  | fadd rd ra rb => exact fieldResult rd fun s => feAdd (s.readField ra) (s.readField rb)
  | fsub rd ra rb => exact fieldResult rd fun s => feSub (s.readField ra) (s.readField rb)
  | fmul rd ra rb => exact fieldResult rd fun s => feMul (s.readField ra) (s.readField rb)
  | fsqr rd ra => exact fieldResult rd fun s => feSqr (s.readField ra)
  | cswap ra rb => exact ite (fun _ => Iff.rfl) (fun _ => rfl) fun _ => rfl
  | loopi tgt => exact ite (fun _ => Iff.rfl) (fun _ => rfl) fun _ => rfl
  | loopr tgt => exact ite (fun _ => Iff.rfl) (fun _ => rfl) fun _ => rfl
  | seti | setr | enc | clmp | halt => exact fun _ => rfl
  | clr => exact hostCommand fun _ => rfl
  | mulbase => exact hostCommand (startProgram 0x02)
  | clamp => exact hostCommand (startProgram 0x00)

/-- The word at `upc` decides what the micro-step executes (R180). -/
theorem microStep : ControlDetermined microStep := by
  intro s
  cases hd : decodeMicro s.fetch with
  | ok i => rw [microStep_of_decode_ok hd, microStep_of_decode_ok (s := controlOf s) hd]; exact exec i s
  | error e => rw [microStep_of_decode_error hd, microStep_of_decode_error (s := controlOf s) hd]; rfl

/-- `BUSY` decides whether the sequencer has a step (R180). -/
theorem sequencerTurn : ControlDetermined sequencerTurn :=
  ite (fun _ => Iff.rfl) microStep fun _ => rfl

/-- The byte decides which command a `CMD` write is (R84, R92). -/
theorem commandWrite (v : Byte) : ControlDetermined (commandWrite v) := by
  cases hd : decodeCommand v with
  | ok i =>
    exact fun s => by simpa only [commandWrite_of_decode_ok hd] using exec i s
  | error e =>
    have hillegal : ControlDetermined illegalCommand := hostCommand fun _ => rfl
    exact fun s => by simpa only [commandWrite_eq_illegalCommand hd] using hillegal s

/-- The offset decides what a write does (R63). -/
theorem windowWrite (off : Nat) (v : Byte) : ControlDetermined (windowWrite off v) :=
  ite (fun _ => Iff.rfl) (commandWrite v) (ite (fun _ => Iff.rfl) (pushByte v) fun _ => rfl)

/-- Width and offset decide whether an access has a step; what a read returns is not control (R62, R65, R39). -/
theorem hostAccess (a : Access) : ControlDetermined (hostAccess a) := by
  cases a with
  | read off bytes => exact ite (fun _ => Iff.rfl) (fun _ => rfl) (ite (fun _ => Iff.rfl) (fun _ => rfl) fun _ => rfl)
  | write off bytes v =>
    exact ite (fun _ => Iff.rfl) (fun _ => rfl) (ite (fun _ => Iff.rfl) (fun _ => rfl) (windowWrite off v))

/-- The next turn decides whose step it is (R69). -/
theorem step : ControlDetermined step := by
  intro s
  obtain ⟨hs, hx⟩ | ⟨rest, hs, hx⟩ | ⟨a, rest, hs, hx⟩ | ⟨rest, hs, hx⟩ := step_cases s <;> rw [hx]
  · rw [step_of_nil (s := controlOf s) hs]; exact sequencerTurn s
  · rw [step_of_sequencer (s := controlOf s) hs]; exact sequencerTurn { s with turns := rest }
  · rw [step_of_host (s := controlOf s) hs]; exact hostAccess a { s with turns := rest }
  · rw [step_of_reset (s := controlOf s) hs]; rfl

end ControlDetermined

theorem microOp?_eq_of_sameControl (h : SameControl s t) : s.microOp? = t.microOp? := by
  rw [← microOp?_controlOf s, sameControl_iff.1 h, microOp?_controlOf]

/-- Settles O45: the micro-operation is read from control, and a step's control is determined by control. -/
theorem controlIsIndependentOfSecrets : Obligations.ControlIsIndependentOfSecrets := by
  unfold Obligations.ControlIsIndependentOfSecrets
  exact fun s t h => ⟨microOp?_eq_of_sameControl h, ControlDetermined.step.sameControlOutcome h⟩

/-! The trace of the micro-steps -/

/-- A micro-step never stops the machine: an illegal word raises an error of the block (R91, R180). -/
theorem exists_microStep_eq_next (s : State) : ∃ t, microStep s = .next t := by
  cases hd : decodeMicro s.fetch with
  | ok i => exact microStep_of_decode_ok hd ▸ exists_exec_eq_next i s
  | error e => exact ⟨_, microStep_of_decode_error hd⟩

/-- Two micro-steps from the same control execute one micro-operation and end in the same control. -/
theorem microTrace_eq_of_sameControl (n : Nat) (h : SameControl s t) : microTrace n s = microTrace n t := by
  induction n generalizing s t with
  | zero => rfl
  | succ n ih =>
    obtain ⟨s', hs⟩ := exists_microStep_eq_next s
    obtain ⟨t', ht⟩ := exists_microStep_eq_next t
    have hnext : SameControl s' t' := by
      simpa only [hs, ht, SameControlOutcome] using ControlDetermined.microStep.sameControlOutcome h
    rw [microTrace, microTrace, hs, ht, microOp?_eq_of_sameControl h]
    cases t.microOp? with
    | none => rfl
    | some i => exact congrArg (i :: ·) (ih hnext)

/-- Settles O46: the traces are equal, and the cycle count is a function of the trace. -/
theorem durationIsIndependentOfSecrets : Obligations.DurationIsIndependentOfSecrets := by
  unfold Obligations.DurationIsIndependentOfSecrets
  intro n s t h
  have htrace := microTrace_eq_of_sameControl n h
  exact ⟨htrace, congrArg cyclesOf htrace⟩

end Sys2Proof.Proofs
end
